-- ==== Sys2Proof/Word.lean ====
section
/-! DEFINITION. The word types of the block (spec 00_scope.md R9, R10): wire bytes, frame samples, reports. -/

namespace Sys2Proof

/-- A byte on the wire or on a port: 8 bits, unsigned (00_scope.md R9, R10). -/
abbrev Byte := BitVec 8

/-- A frame sample, the content of one frame-buffer cell: 16 bits, unsigned (00_scope.md R9). -/
abbrev Sample := BitVec 16

/-- The 64 data bytes of a report, offset 0 first (00_scope.md R10, 20_memory.md R62, R63). That there are 64 of them
is checked where a report comes in (`Instr.wf`, `decode`) and proved where one is built. -/
abbrev Report := List Byte

end Sys2Proof
end

