-- ==== Sys2Proof/Config.lean ====
section
/-! DEFINITION. What an instance of the block fixes (spec 00_scope.md R7, R8): the constants, the elaboration
parameters, and the free values (R15). -/

namespace Sys2Proof

/-- PROTOCOL, the outbound wire variant (00_scope.md R8, 40_framer.md R120). -/
inductive Protocol where
  | simple
  | framed
  deriving DecidableEq, Repr, Inhabited

/-- SAMPLE_ORDER, the byte order of a sample pair (00_scope.md R8, 20_memory.md R64). -/
inductive SampleOrder where
  | hiFirst
  | loFirst
  deriving DecidableEq, Repr, Inhabited

/-- DOC's semantic Command (30_encoding.md R85, 40_framer.md R118). Channel numbers take 3 bits, the integration time
17 (00_scope.md R9); `Machine.commandOf` builds only values in the ranges of R118. -/
inductive Command where
  | selectChannel (channel : BitVec 3)
  | setIntegrationTime (ms : BitVec 17)
  | setGainMode (mode : BitVec 1)
  | capture (channel : BitVec 3)
  deriving DecidableEq, Repr

/-- One value of SEM_FRAMED: command byte, data_type byte, payload bytes (00_scope.md R8, 40_framer.md R119). -/
structure FramedCode where
  cmd : Byte
  dt : Byte
  payload : List Byte
  deriving DecidableEq, Repr

/-- One value of SEM_SIMPLE: opcode byte, parameter bytes (00_scope.md R8, 40_framer.md R119). -/
structure SimpleCode where
  opcode : Byte
  args : List Byte
  deriving DecidableEq, Repr

/-- The elaboration parameters of 00_scope.md R8. SEM_FRAMED and SEM_SIMPLE are total maps from Command; a Command has
finitely many values, so each map is written as a table, read by `Machine.Params.semFramedOf` and `semSimpleOf`, and
every total map is some table. DESIGN CHOICE, safe (log 2). -/
structure Params where
  protocol : Protocol
  sampleOrder : SampleOrder
  getEcho : Byte
  semFramed : List (Command × FramedCode)
  semSimple : List (Command × SimpleCode)
  countTruncated : Bool
  fill : Sample
  deriving DecidableEq, Repr

namespace Config

/-! ## Constants of the block (00_scope.md R7) -/

/-- REPORT_BYTES. -/
def reportBytes : Nat := 64
/-- PREAMBLE. -/
def preamble : Byte := 0xAA
/-- SENTINEL: the two trailing bytes, and the checksum's collision value. -/
def sentinel : Byte := 0x17
/-- CHK_REMAP: the checksum used instead of SENTINEL. -/
def chkRemap : Byte := 0x18
/-- MAX_FRAMED_PAYLOAD (40_framer.md R115). -/
def maxFramedPayload : Nat := 57
/-- MAX_SIMPLE_PARAMS (40_framer.md R116). -/
def maxSimpleParams : Nat := 63
/-- MIN_RESPONSE_BYTES. -/
def minResponseBytes : Nat := 6
/-- SAMPLES_PER_PACKET. -/
def samplesPerPacket : Nat := 12
/-- SAMPLE_OFFSET: the report offset of the first sample byte. -/
def sampleOffset : Nat := 6
/-- The frame buffer's cells, addresses 0..575 (20_memory.md R60). -/
def fbCells : Nat := 576
/-- The row stride of the frame buffer, in both modes (42_mapper.md R172). -/
def fbStride : Nat := 24
/-- CAP_DEFAULT. -/
def capDefault : BitVec 8 := 20
/-- READ_TIMEOUT_DEFAULT, in ms. -/
def readTimeoutDefault : BitVec 32 := 5000
/-- The upper end of INTEGRATION_TIME_RANGE, in ms. -/
def integrationTimeMax : Nat := 66000
/-- The decided default of GET_ECHO (00_scope.md R8, 30_encoding.md R94). -/
def getEchoDefault : Byte := 0x02

/-! ## Free values: no body, so nothing can be proved of what they are -/

/-- A draw of a byte (00_scope.md R15): the byte at `offset` of draw number `n`. `Block.draws` numbers the draws.
DESIGN CHOICE, safe (logs 5, 7, 8). -/
opaque drawByte (n offset : Nat) : Byte

/-- A draw of a frame-buffer cell's content at power-up and reset (10_state.md R35). DESIGN CHOICE, safe (log 6). -/
opaque drawCell (n addr : Nat) : Sample

/-- PROTOCOL of the instance right after reset: OPEN (00_scope.md R8). DESIGN CHOICE, safe (log 1). -/
opaque protocol : Protocol

/-- SAMPLE_ORDER of the instance right after reset: OPEN (00_scope.md R8). DESIGN CHOICE, safe (log 1). -/
opaque sampleOrder : SampleOrder

/-- SEM_FRAMED of the instance right after reset: OPEN (40_framer.md R119). DESIGN CHOICE, safe (logs 1, 2). -/
opaque semFramed : List (Command × FramedCode)

/-- SEM_SIMPLE of the instance right after reset: OPEN (40_framer.md R119). DESIGN CHOICE, safe (logs 1, 2). -/
opaque semSimple : List (Command × SimpleCode)

/-- The parameters of the instance that `State.reset` stands for: the decided defaults where 00_scope.md R8 decides
one, a free value where it says OPEN (log 1). -/
def params : Params where
  protocol := protocol
  sampleOrder := sampleOrder
  getEcho := getEchoDefault
  semFramed := semFramed
  semSimple := semSimple
  countTruncated := false
  fill := 0x0000

end Config

end Sys2Proof
end

