-- ==== Sys2Proof/Syntax.lean ====
section
/-! DEFINITION. The rows of spec/opcode_table.json as one inductive, with the ports and the wires they are read from
(spec 30_encoding.md). -/

namespace Sys2Proof

/-- The two command ports, one for each agent (30_encoding.md R80). -/
inductive Port where
  | host
  | transport
  deriving DecidableEq, Repr

/-- What an inbound report of a class of 30_encoding.md R91 holds beside the bytes its class fixes: the meaningful
length L (R84), the bytes at offsets 0, 1 and 3, which the block never reads (R90), and the bytes at offsets 6..63. -/
structure Packet where
  len : Byte
  b0 : Byte
  b1 : Byte
  b3 : Byte
  body : List Byte
  deriving DecidableEq, Repr

/-- One constructor for each row of spec/opcode_table.json. The count byte of ENC_SIMPLE and ENC_FRAMED is the length
of the byte list. In the IN_ rows `echo` is b[2], `dt` is b[4], `st` is b[5] (30_encoding.md R90); a row that fixes
one of them does not carry it. -/
inductive Instr where
  -- operations of the host port and the transport port (30_encoding.md R81)
  | encSimple (opcode : Byte) (args : List Byte)
  | encFramed (cmd dt : Byte) (payload : List Byte)
  | encCmd (kind : Byte) (arg : BitVec 24)
  | chkValidate (r : Report)
  | classify (len : Byte) (r : Report)
  | capStart (ch : Byte)
  | sendAck (st : Byte)
  | pktIn (len : Byte) (r : Report)
  | rdTimeout
  | xportErr
  | abort
  | cfgWrite (reg : Byte) (v : BitVec 32)
  | statusRead (reg : Byte)
  | frameRead (row col : Byte)
  -- the unassigned op codes, on either port (30_encoding.md R96)
  | illegalOp (port : Port) (op : Byte) (rest : List Byte)
  -- outbound report formats (30_encoding.md R86, R88)
  | rptFramed (cmd dt : Byte) (payload : List Byte)
  | rptSimple (opcode : Byte) (args : List Byte)
  -- inbound get replies (41_classifier.md R144)
  | inGet01 (p : Packet) (st : Byte)
  | inGet01End (p : Packet)
  | inGet01Sto (p : Packet)
  | inGet02 (p : Packet) (st : Byte)
  | inGet02End (p : Packet)
  | inGet02Sto (p : Packet)
  | inGet12 (p : Packet) (st : Byte)
  | inGet12End (p : Packet)
  | inGet12Sto (p : Packet)
  | inGet22 (p : Packet) (st : Byte)
  | inGet22End (p : Packet)
  | inGet22Sto (p : Packet)
  | inGet32 (p : Packet) (st : Byte)
  | inGet32End (p : Packet)
  | inGet32Sto (p : Packet)
  | inGet03 (p : Packet) (st : Byte)
  | inGet03End (p : Packet)
  | inGet03Sto (p : Packet)
  -- inbound row packets whose echo is not GET_ECHO (41_classifier.md R147)
  | inRow01Retain (p : Packet) (echo st : Byte)
  | inRow02Retain (p : Packet) (echo st : Byte)
  | inRow12Retain (p : Packet) (echo st : Byte)
  | inRow22Retain (p : Packet) (echo st : Byte)
  | inRow32Retain (p : Packet) (echo st : Byte)
  -- inbound status replies (41_classifier.md R146)
  | inStatus07End (p : Packet) (echo : Byte)
  | inStatus07 (p : Packet) (echo st : Byte)
  | inStatus08End (p : Packet) (echo : Byte)
  | inStatus08 (p : Packet) (echo st : Byte)
  | inStatus0BEnd (p : Packet) (echo : Byte)
  | inStatus0B (p : Packet) (echo st : Byte)
  -- every other inbound report, and the truncated ones (41_classifier.md R147, R140)
  | inOther (p : Packet) (echo dt st : Byte)
  | inTruncated (len : Byte) (r : Report)
  deriving DecidableEq, Repr

/-- An encoded instruction: the bytes of a transaction on a port (30_encoding.md R80), an inbound report with its
meaningful length (R84), or an outbound report (R86, R88). -/
inductive Wire where
  | transaction (port : Port) (bytes : List Byte)
  | inbound (len : Byte) (r : Report)
  | outbound (r : Report)
  deriving DecidableEq, Repr

/-- What the agents and the environment can present to the block (00_scope.md R6): a transaction on a port (30_encoding.md
R80), an inbound report delivered by the transport (43_sequencer.md R196; log 9), the transport's read of TX (10_state.md
R36; log 8), or RESET (70_reset_and_hazards.md R270). -/
inductive Input where
  | transaction (port : Port) (bytes : List Byte)
  | inbound (len : Byte) (r : Report)
  | txRead
  | reset
  deriving DecidableEq, Repr

end Sys2Proof
end

