-- ==== Sys2Proof/Machine/Operands.lean ====
section
/-! DEFINITION. Operand forms: bytes of a report, big-endian operands of the ports (spec 20_memory.md R65), sample
pairs (R64, 41_classifier.md R149), and the semantic maps (40_framer.md R119). -/

namespace Sys2Proof.Machine

/-- `b[i]` of a report or transaction (00_scope.md R10). Past the end of the list it is 0, which no rule reads. -/
def byteAt (r : List Byte) (i : Nat) : Byte := r.getD i 0

/-- `b[i..j]` with `n` bytes: n bytes from offset i on (00_scope.md R10). -/
def slice (r : List Byte) (i n : Nat) : List Byte := (r.drop i).take n

/-- A u24 operand, most significant byte first (20_memory.md R65). -/
def be24 (a b c : Byte) : BitVec 24 := a ++ b ++ c

/-- A u32 operand, most significant byte first (20_memory.md R65). -/
def be32 (a b c d : Byte) : BitVec 32 := a ++ b ++ c ++ d

/-- The two bytes of a u16 result, most significant first (30_encoding.md R81, R83). -/
def bytes16 (v : BitVec 16) : List Byte := [v.extractLsb' 8 8, v.extractLsb' 0 8]

/-- The three bytes of a u24 operand, most significant first (20_memory.md R65). -/
def bytes24 (v : BitVec 24) : List Byte := [v.extractLsb' 16 8, v.extractLsb' 8 8, v.extractLsb' 0 8]

/-- The four bytes of a u32 operand or result, most significant first (20_memory.md R65). -/
def bytes32 (v : BitVec 32) : List Byte :=
  [v.extractLsb' 24 8, v.extractLsb' 16 8, v.extractLsb' 8 8, v.extractLsb' 0 8]

/-- A sample from its two bytes in offset order (20_memory.md R64): HI_FIRST is x0*256 + x1, LO_FIRST x1*256 + x0. -/
def samplePair (order : SampleOrder) (x0 x1 : Byte) : Sample :=
  match order with
  | .hiFirst => x0 ++ x1
  | .loFirst => x1 ++ x0

/-- The byte at report offset i >= 6 as a rule reads it: `body` holds the offsets 6..63; at an offset >= L it is a
draw, number n (30_encoding.md R84, 41_classifier.md R149; DESIGN CHOICE of the form, safe, log 5). -/
def sampleByte (n len : Nat) (body : List Byte) (i : Nat) : Byte :=
  if i < len then byteAt body (i - Config.sampleOffset) else Config.drawByte n i

/-- S(k) of 41_classifier.md R149. -/
def sampleAt (order : SampleOrder) (n len : Nat) (body : List Byte) (k : Nat) : Sample :=
  samplePair order (sampleByte n len body (Config.sampleOffset + 2 * k))
    (sampleByte n len body (Config.sampleOffset + 2 * k + 1))

/-- The 12 samples S(0), …, S(11) of a row packet (41_classifier.md R149). -/
def sampleRow (order : SampleOrder) (n len : Nat) (body : List Byte) : List Sample :=
  (List.range Config.samplesPerPacket).map (sampleAt order n len body)

/-- The value a table gives a Command: its first entry for it, else `dflt`. -/
def lookupCommand {α : Type} (dflt : α) (c : Command) : List (Command × α) → α
  | [] => dflt
  | (c', a) :: rest => if c = c' then a else lookupCommand dflt c rest

/-- SEM_FRAMED(c) (40_framer.md R119; log 2). -/
def semFramedOf (p : Params) (c : Command) : FramedCode := lookupCommand ⟨0, 0, []⟩ c p.semFramed

/-- SEM_SIMPLE(c) (40_framer.md R119; log 2). -/
def semSimpleOf (p : Params) (c : Command) : SimpleCode := lookupCommand ⟨0, []⟩ c p.semSimple

/-- Command(kind, arg) where kind and arg are in the ranges of 30_encoding.md R85 and 40_framer.md R118, else none. -/
def commandOf (kind : Byte) (arg : BitVec 24) : Option Command :=
  if kind = 0 then
    if 1 ≤ arg.toNat ∧ arg.toNat ≤ 4 then some (.selectChannel (arg.setWidth 3)) else none
  else if kind = 1 then
    if 1 ≤ arg.toNat ∧ arg.toNat ≤ Config.integrationTimeMax then some (.setIntegrationTime (arg.setWidth 17)) else none
  else if kind = 2 then
    if arg.toNat ≤ 1 then some (.setGainMode (arg.setWidth 1)) else none
  else if kind = 3 then
    if 1 ≤ arg.toNat ∧ arg.toNat ≤ 4 then some (.capture (arg.setWidth 3)) else none
  else none

end Sys2Proof.Machine
end

