-- ==== Sys2Proof/Machine/Layout.lean ====
section
/-! DEFINITION. The outbound wire layouts and the checksum (spec 30_encoding.md R86, R88; 40_framer.md R110, R112, R121). -/

namespace Sys2Proof.Machine

/-- The sum of the bytes modulo 256 (40_framer.md R110). -/
def byteSum (s : List Byte) : Byte := s.foldl (· + ·) 0

/-- CHK (40_framer.md R110): the sum, with 0x17 remapped to 0x18. -/
def chk (s : List Byte) : Byte :=
  if byteSum s = Config.sentinel then Config.chkRemap else byteSum s

/-- The bytes the checksum covers: command, length, data_type, payload (30_encoding.md R87). -/
def framedBody (cmd dt : Byte) (payload : List Byte) : List Byte :=
  cmd :: BitVec.ofNat 8 (payload.length + 1) :: dt :: payload

/-- The framed report of 30_encoding.md R86, zero padded (40_framer.md R112), for at most 57 payload bytes. -/
def framedReport (cmd dt : Byte) (payload : List Byte) : Report :=
  Config.preamble :: framedBody cmd dt payload ++
    [chk (framedBody cmd dt payload), Config.sentinel, Config.sentinel] ++
    List.replicate (Config.maxFramedPayload - payload.length) 0

/-- The simple report of 30_encoding.md R88, zero padded (40_framer.md R112), for at most 63 parameter bytes. -/
def simpleReport (opcode : Byte) (args : List Byte) : Report :=
  opcode :: args ++ List.replicate (Config.maxSimpleParams - args.length) 0

/-- The verdicts of CHK_VALIDATE (40_framer.md R121). -/
inductive Verdict where
  | ok
  | badPreamble
  | badLength
  | badChecksum
  | badSentinel
  deriving DecidableEq, Repr

/-- The verdict's number (40_framer.md R121). -/
def verdictCode : Verdict → Byte
  | .ok => 0
  | .badPreamble => 1
  | .badLength => 2
  | .badChecksum => 3
  | .badSentinel => 4

/-- The validator's checks, in the order of 40_framer.md R121. -/
def validate (r : Report) : Verdict :=
  let n := (byteAt r 2).toNat - 1
  if byteAt r 0 ≠ Config.preamble then .badPreamble
  else if (byteAt r 2).toNat < 1 ∨ 58 < (byteAt r 2).toNat then .badLength
  else if byteAt r (4 + n) ≠ chk (slice r 1 (n + 3)) then .badChecksum
  else if byteAt r (5 + n) ≠ Config.sentinel ∨ byteAt r (6 + n) ≠ Config.sentinel then .badSentinel
  else .ok

/-- The payload that the length byte of a framed report delimits: offsets 4..3+n (30_encoding.md R86). -/
def payloadOf (r : Report) : List Byte := slice r 4 ((byteAt r 2).toNat - 1)

/-- The pad bytes at offsets 7+n..63 are zero (40_framer.md R112). -/
def padIsZero (r : Report) : Bool := (r.drop (6 + (byteAt r 2).toNat)).all (· == 0)

end Sys2Proof.Machine
end

