-- ==== Sys2Proof/WellFormed.lean ====
section
/-! DEFINITION. Which terms of `Instr` stand for an encoded instruction (spec 30_encoding.md R81, R84, R86, R88, R91, R92,
R96): the checks on operand ranges, counts and class conditions. -/

namespace Sys2Proof

/-- The assigned op codes (30_encoding.md R81). -/
def assignedOps : List Byte :=
  [0x01, 0x02, 0x03, 0x04, 0x05, 0x10, 0x11, 0x12, 0x13, 0x14, 0x15, 0x20, 0x21, 0x22]

/-- The data_type values that have a row of their own in 30_encoding.md R91. -/
def classifiedTypes : List Byte := [0x01, 0x02, 0x12, 0x22, 0x32, 0x03, 0x07, 0x08, 0x0B]

/-- A non-truncated inbound report: L in 6..64 and 58 bytes at offsets 6..63 (30_encoding.md R84, 41_classifier.md
R140). -/
def Packet.wf (p : Packet) : Bool :=
  decide (6 ≤ p.len.toNat) && decide (p.len.toNat ≤ 64) && decide (p.body.length = 58)

/-- The status byte of a continuing get reply (41_classifier.md R144). -/
def continuingStatus (st : Byte) : Bool := decide (st ≠ 0x0B) && decide (st ≠ 0xF1)

/-- The term is the reading of some encoded instruction on an instance with these GET_ECHO and PROTOCOL. -/
def Instr.wf (getEcho : Byte) (proto : Protocol) : Instr → Bool
  | .encSimple _ args => decide (args.length < 256)
  | .encFramed _ _ payload => decide (payload.length < 256)
  | .encCmd _ _ => true
  | .chkValidate r => decide (r.length = 64)
  | .classify _ r => decide (r.length = 64)
  | .capStart _ => true
  | .sendAck _ => true
  | .pktIn _ r => decide (r.length = 64)
  | .rdTimeout => true
  | .xportErr => true
  | .abort => true
  | .cfgWrite _ _ => true
  | .statusRead _ => true
  | .frameRead _ _ => true
  | .illegalOp _ op _ => decide (op ∉ assignedOps)
  | .rptFramed _ _ payload => decide (proto = .framed) && decide (payload.length ≤ 57)
  | .rptSimple _ args => decide (proto = .simple) && decide (args.length = 63)
  | .inGet01 p st => p.wf && continuingStatus st
  | .inGet01End p => p.wf
  | .inGet01Sto p => p.wf
  | .inGet02 p st => p.wf && continuingStatus st
  | .inGet02End p => p.wf
  | .inGet02Sto p => p.wf
  | .inGet12 p st => p.wf && continuingStatus st
  | .inGet12End p => p.wf
  | .inGet12Sto p => p.wf
  | .inGet22 p st => p.wf && continuingStatus st
  | .inGet22End p => p.wf
  | .inGet22Sto p => p.wf
  | .inGet32 p st => p.wf && continuingStatus st
  | .inGet32End p => p.wf
  | .inGet32Sto p => p.wf
  | .inGet03 p st => p.wf && continuingStatus st
  | .inGet03End p => p.wf
  | .inGet03Sto p => p.wf
  | .inRow01Retain p echo _ => p.wf && decide (echo ≠ getEcho)
  | .inRow02Retain p echo _ => p.wf && decide (echo ≠ getEcho)
  | .inRow12Retain p echo _ => p.wf && decide (echo ≠ getEcho)
  | .inRow22Retain p echo _ => p.wf && decide (echo ≠ getEcho)
  | .inRow32Retain p echo _ => p.wf && decide (echo ≠ getEcho)
  | .inStatus07End p _ => p.wf
  | .inStatus07 p _ st => p.wf && decide (st ≠ 0x17)
  | .inStatus08End p _ => p.wf
  | .inStatus08 p _ st => p.wf && decide (st ≠ 0x17)
  | .inStatus0BEnd p _ => p.wf
  | .inStatus0B p _ st => p.wf && decide (st ≠ 0x17)
  | .inOther p echo dt _ => p.wf && (decide (dt ∉ classifiedTypes) || (decide (dt = 0x03) && decide (echo ≠ getEcho)))
  | .inTruncated len r => decide (len.toNat < 6) && decide (r.length = 64)

end Sys2Proof
end

