-- ==== Sys2Proof/Decode.lean ====
section
/-! DEFINITION. From bytes to an instruction, total, rejecting by name (spec 30_encoding.md R81, R82, R84, R90..R96), and the
encoder beside it. -/

namespace Sys2Proof

open Machine

/-- Why bytes are no instruction. Each is answered by the step with the result the spec gives it (`Machine.reject`):
none of them stops the machine. -/
inductive DecodeError where
  /-- A transaction without an op code byte (30_encoding.md R95). -/
  | emptyTransaction (port : Port)
  /-- An assigned op code on the port it is not valid on (30_encoding.md R82). -/
  | wrongPort (port : Port) (op : Byte)
  /-- A transaction whose length is not the one its op code has (30_encoding.md R95). -/
  | wrongLength (port : Port) (op : Byte)
  /-- An inbound report that is not 64 bytes (30_encoding.md R84). -/
  | inboundLength
  /-- An outbound report that is not in the layout PROTOCOL selects (30_encoding.md R86, R88). -/
  | notReport (r : Report)
  /-- A read of TX while TX_VALID = 0 (70_reset_and_hazards.md R278). -/
  | txNotValid
  deriving DecidableEq, Repr

/-- What the decoder answers. -/
inductive Decoded where
  | instr (i : Instr)
  | rejected (e : DecodeError)
  deriving DecidableEq, Repr

/-- The port an assigned op code is valid on (30_encoding.md R82). -/
def portOfOp (op : Byte) : Port :=
  if op = 0x11 ∨ op = 0x12 ∨ op = 0x13 ∨ op = 0x14 then .transport else .host

/-! ## Transactions (30_encoding.md R81, R95) -/

/-- ENC_SIMPLE's operands: opcode, m, then m bytes. -/
def operandsEncSimple : List Byte → Option Instr
  | opcode :: m :: args => if args.length = m.toNat then some (.encSimple opcode args) else none
  | _ => none

/-- ENC_FRAMED's operands: cmd, dt, n, then n bytes. -/
def operandsEncFramed : List Byte → Option Instr
  | cmd :: dt :: n :: payload => if payload.length = n.toNat then some (.encFramed cmd dt payload) else none
  | _ => none

/-- ENC_CMD's operands: kind, arg as u24. -/
def operandsEncCmd : List Byte → Option Instr
  | [kind, a, b, c] => some (.encCmd kind (be24 a b c))
  | _ => none

/-- CHK_VALIDATE's operand: 64 bytes. -/
def operandsChkValidate (bytes : List Byte) : Option Instr :=
  if bytes.length = Config.reportBytes then some (.chkValidate bytes) else none

/-- CLASSIFY's operands: L, 64 bytes. -/
def operandsClassify : List Byte → Option Instr
  | len :: r => if r.length = Config.reportBytes then some (.classify len r) else none
  | [] => none

/-- PKT_IN's operands: L, 64 bytes. -/
def operandsPktIn : List Byte → Option Instr
  | len :: r => if r.length = Config.reportBytes then some (.pktIn len r) else none
  | [] => none

/-- CFG_WRITE's operands: reg, value as u32. -/
def operandsCfgWrite : List Byte → Option Instr
  | [reg, a, b, c, d] => some (.cfgWrite reg (be32 a b c d))
  | _ => none

/-- FRAME_READ's operands: row, col. -/
def operandsFrameRead : List Byte → Option Instr
  | [row, col] => some (.frameRead row col)
  | _ => none

/-- An operation whose one operand is a byte. -/
def operandsByte (f : Byte → Instr) : List Byte → Option Instr
  | [x] => some (f x)
  | _ => none

/-- An operation without operands. -/
def operandsNone (i : Instr) : List Byte → Option Instr
  | [] => some i
  | _ => none

/-- The operand bytes of each assigned op code (30_encoding.md R81); none where their number is not the op code's. -/
def decodeOperands (op : Byte) (rest : List Byte) : Option Instr :=
  if op = 0x01 then operandsEncSimple rest
  else if op = 0x02 then operandsEncFramed rest
  else if op = 0x03 then operandsEncCmd rest
  else if op = 0x04 then operandsChkValidate rest
  else if op = 0x05 then operandsClassify rest
  else if op = 0x10 then operandsByte .capStart rest
  else if op = 0x11 then operandsByte .sendAck rest
  else if op = 0x12 then operandsPktIn rest
  else if op = 0x13 then operandsNone .rdTimeout rest
  else if op = 0x14 then operandsNone .xportErr rest
  else if op = 0x15 then operandsNone .abort rest
  else if op = 0x20 then operandsCfgWrite rest
  else if op = 0x21 then operandsByte .statusRead rest
  else if op = 0x22 then operandsFrameRead rest
  else none

/-- A transaction (30_encoding.md R80): the op code first (R96, R82), then the length (R95), in the order of
60_exceptions.md R243. -/
def decodeTransaction (port : Port) : List Byte → Decoded
  | [] => .rejected (.emptyTransaction port)
  | op :: rest =>
    if op ∉ assignedOps then .instr (.illegalOp port op rest)
    else if portOfOp op ≠ port then .rejected (.wrongPort port op)
    else match decodeOperands op rest with
      | some i => .instr i
      | none => .rejected (.wrongLength port op)

/-! ## Inbound reports (30_encoding.md R90..R92) -/

/-- Which of a get reply's three rows a status byte selects (41_classifier.md R144). -/
def getReplyClass (st : Byte) (cont terminal timeout : Instr) : Instr :=
  if st = 0x0B then terminal else if st = 0xF1 then timeout else cont

/-- The class of a non-truncated inbound report (30_encoding.md R91, R92; opcode_table.json's INBOUND rows). -/
def inboundClass (getEcho : Byte) (p : Packet) (echo dt st : Byte) : Instr :=
  if dt = 0x01 then
    if echo = getEcho then getReplyClass st (.inGet01 p st) (.inGet01End p) (.inGet01Sto p)
    else .inRow01Retain p echo st
  else if dt = 0x02 then
    if echo = getEcho then getReplyClass st (.inGet02 p st) (.inGet02End p) (.inGet02Sto p)
    else .inRow02Retain p echo st
  else if dt = 0x12 then
    if echo = getEcho then getReplyClass st (.inGet12 p st) (.inGet12End p) (.inGet12Sto p)
    else .inRow12Retain p echo st
  else if dt = 0x22 then
    if echo = getEcho then getReplyClass st (.inGet22 p st) (.inGet22End p) (.inGet22Sto p)
    else .inRow22Retain p echo st
  else if dt = 0x32 then
    if echo = getEcho then getReplyClass st (.inGet32 p st) (.inGet32End p) (.inGet32Sto p)
    else .inRow32Retain p echo st
  else if dt = 0x03 then
    if echo = getEcho then getReplyClass st (.inGet03 p st) (.inGet03End p) (.inGet03Sto p)
    else .inOther p echo dt st
  else if dt = 0x07 then
    if st = 0x17 then .inStatus07End p echo else .inStatus07 p echo st
  else if dt = 0x08 then
    if st = 0x17 then .inStatus08End p echo else .inStatus08 p echo st
  else if dt = 0x0B then
    if st = 0x17 then .inStatus0BEnd p echo else .inStatus0B p echo st
  else .inOther p echo dt st

/-- An inbound report with its meaningful length (30_encoding.md R84). With L > 64 it is in no class: it is the PKT_IN
that carries it, which raises INVALID_ARGUMENT (43_sequencer.md R194; log 9). -/
def decodeInbound (getEcho len : Byte) (r : Report) : Decoded :=
  if r.length ≠ Config.reportBytes then .rejected .inboundLength
  else if 64 < len.toNat then .instr (.pktIn len r)
  else if len.toNat < Config.minResponseBytes then .instr (.inTruncated len r)
  else .instr (inboundClass getEcho ⟨len, byteAt r 0, byteAt r 1, byteAt r 3, r.drop Config.sampleOffset⟩
    (byteAt r 2) (byteAt r 4) (byteAt r 5))

/-! ## Outbound reports (30_encoding.md R86, R88, R89) -/

/-- An outbound report, by PROTOCOL alone (30_encoding.md R89). A simple report does not carry m, so all 63 bytes after
the opcode are read as its parameters (log 19). -/
def decodeOutbound (proto : Protocol) (r : Report) : Decoded :=
  match proto with
  | .framed =>
    if r.length = Config.reportBytes ∧ validate r = .ok ∧ padIsZero r = true then
      .instr (.rptFramed (byteAt r 1) (byteAt r 3) (payloadOf r))
    else .rejected (.notReport r)
  | .simple =>
    if r.length = Config.reportBytes then .instr (.rptSimple (byteAt r 0) (r.drop 1)) else .rejected (.notReport r)

/-- The decoder, on any bytes, for an instance with these GET_ECHO and PROTOCOL. -/
def decode (getEcho : Byte) (proto : Protocol) : Wire → Decoded
  | .transaction port bytes => decodeTransaction port bytes
  | .inbound len r => decodeInbound getEcho len r
  | .outbound r => decodeOutbound proto r

/-! ## The encoder -/

/-- The 64 bytes of an inbound report (30_encoding.md R90). -/
def packetReport (p : Packet) (echo dt st : Byte) : Report :=
  p.b0 :: p.b1 :: echo :: p.b3 :: dt :: st :: p.body

/-- The wire form of an inbound class. -/
def encodePacket (p : Packet) (echo dt st : Byte) : Wire := .inbound p.len (packetReport p echo dt st)

/-- The bytes of a well-formed instruction, from the encodings of 30_encoding.md R81, R86, R88 and R91. -/
def encode (getEcho : Byte) : Instr → Wire
  | .encSimple opcode args => .transaction .host (0x01 :: opcode :: BitVec.ofNat 8 args.length :: args)
  | .encFramed cmd dt payload => .transaction .host (0x02 :: cmd :: dt :: BitVec.ofNat 8 payload.length :: payload)
  | .encCmd kind arg => .transaction .host (0x03 :: kind :: bytes24 arg)
  | .chkValidate r => .transaction .host (0x04 :: r)
  | .classify len r => .transaction .host (0x05 :: len :: r)
  | .capStart ch => .transaction .host [0x10, ch]
  | .sendAck st => .transaction .transport [0x11, st]
  | .pktIn len r => .transaction .transport (0x12 :: len :: r)
  | .rdTimeout => .transaction .transport [0x13]
  | .xportErr => .transaction .transport [0x14]
  | .abort => .transaction .host [0x15]
  | .cfgWrite reg v => .transaction .host (0x20 :: reg :: bytes32 v)
  | .statusRead reg => .transaction .host [0x21, reg]
  | .frameRead row col => .transaction .host [0x22, row, col]
  | .illegalOp port op rest => .transaction port (op :: rest)
  | .rptFramed cmd dt payload => .outbound (framedReport cmd dt payload)
  | .rptSimple opcode args => .outbound (simpleReport opcode args)
  | .inGet01 p st => encodePacket p getEcho 0x01 st
  | .inGet01End p => encodePacket p getEcho 0x01 0x0B
  | .inGet01Sto p => encodePacket p getEcho 0x01 0xF1
  | .inGet02 p st => encodePacket p getEcho 0x02 st
  | .inGet02End p => encodePacket p getEcho 0x02 0x0B
  | .inGet02Sto p => encodePacket p getEcho 0x02 0xF1
  | .inGet12 p st => encodePacket p getEcho 0x12 st
  | .inGet12End p => encodePacket p getEcho 0x12 0x0B
  | .inGet12Sto p => encodePacket p getEcho 0x12 0xF1
  | .inGet22 p st => encodePacket p getEcho 0x22 st
  | .inGet22End p => encodePacket p getEcho 0x22 0x0B
  | .inGet22Sto p => encodePacket p getEcho 0x22 0xF1
  | .inGet32 p st => encodePacket p getEcho 0x32 st
  | .inGet32End p => encodePacket p getEcho 0x32 0x0B
  | .inGet32Sto p => encodePacket p getEcho 0x32 0xF1
  | .inGet03 p st => encodePacket p getEcho 0x03 st
  | .inGet03End p => encodePacket p getEcho 0x03 0x0B
  | .inGet03Sto p => encodePacket p getEcho 0x03 0xF1
  | .inRow01Retain p echo st => encodePacket p echo 0x01 st
  | .inRow02Retain p echo st => encodePacket p echo 0x02 st
  | .inRow12Retain p echo st => encodePacket p echo 0x12 st
  | .inRow22Retain p echo st => encodePacket p echo 0x22 st
  | .inRow32Retain p echo st => encodePacket p echo 0x32 st
  | .inStatus07End p echo => encodePacket p echo 0x07 0x17
  | .inStatus07 p echo st => encodePacket p echo 0x07 st
  | .inStatus08End p echo => encodePacket p echo 0x08 0x17
  | .inStatus08 p echo st => encodePacket p echo 0x08 st
  | .inStatus0BEnd p echo => encodePacket p echo 0x0B 0x17
  | .inStatus0B p echo st => encodePacket p echo 0x0B st
  | .inOther p echo dt st => encodePacket p echo dt st
  | .inTruncated len r => .inbound len r

/-! ## Words as spec/opcode_table.json numbers them (log 11) -/

/-- The length in bytes of an op code's transaction when its operand bytes are zeros (30_encoding.md R81). -/
def zeroLength (op : Byte) : Nat :=
  if op = 0x01 then 3 else if op = 0x02 then 4 else if op = 0x03 then 5 else if op = 0x04 then 65
  else if op = 0x05 ∨ op = 0x12 then 66
  else if op = 0x10 ∨ op = 0x11 ∨ op = 0x21 then 2
  else if op = 0x20 then 6 else if op = 0x22 then 3 else 1

/-- Byte k of a number, byte 0 the least significant. -/
def numByte (w k : Nat) : Byte := BitVec.ofNat 8 (w / 256 ^ k)

/-- The wire a table word stands for: 8 bits are an op code, whose operand bytes are zeros, on the port it is valid on;
up to 48 bits are b[0..5] of an inbound report read as one number, b[5] its least significant byte (spec
30_encoding.md's opening; 98_reader.md), with L = 64 and zeros after; 512 bits are an outbound report, b[0] its least
significant byte (log 11). -/
def tableWire (nbits w : Nat) : Wire :=
  if nbits = 0 then .transaction .host []
  else if nbits ≤ 8 then
    .transaction (portOfOp (numByte w 0)) (numByte w 0 :: List.replicate (zeroLength (numByte w 0) - 1) 0)
  else if nbits ≤ 48 then
    .inbound 64 ([numByte w 5, numByte w 4, numByte w 3, numByte w 2, numByte w 1, numByte w 0] ++ List.replicate 58 0)
  else .outbound ((List.range Config.reportBytes).map (numByte w))

/-- The PROTOCOL under which a table word of 512 bits is read: framed where its bytes are a framed report (30_encoding.md
R89: the bytes alone do not tell the variants apart; log 11). -/
def tableProtocol (nbits w : Nat) : Protocol :=
  match tableWire nbits w with
  | .outbound r => if validate r = .ok ∧ padIsZero r = true then .framed else .simple
  | _ => .framed

/-- The instruction the decoder reads from a table word; GET_ECHO is the 0x02 that the table's match values show. -/
def decodeTableWord (nbits w : Nat) : Option Instr :=
  match decode Config.getEchoDefault (tableProtocol nbits w) (tableWire nbits w) with
  | .instr i => some i
  | .rejected _ => none

end Sys2Proof
end

