-- ==== Sys2Proof/Machine/State.lean ====
section
/-! DEFINITION. The machine's state as plain data (spec 10_state.md, 20_memory.md), the reasons a step can stop, and the
state right after reset (spec 70_reset_and_hazards.md R271). -/

namespace Sys2Proof.Machine

/-- STATE, the write-sequencer's state (10_state.md R22). The encodings 5, 6 and 7 are never held. -/
inductive Phase where
  | idle
  | requesting
  | streaming
  | complete
  | failed
  deriving DecidableEq, Repr

/-- The error codes (60_exceptions.md R240). `maxAttemptsExceeded` is never produced (R249). -/
inductive ErrCode where
  | none
  | payloadTooLarge
  | truncatedResponse
  | sensorTimeout
  | timedOut
  | transportError
  | maxAttemptsExceeded
  | illegalState
  | invalidArgument
  | protocolMismatch
  | illegalOp
  deriving DecidableEq, Repr

/-- DONE_REASON (10_state.md R29). The value 3 is never held. -/
inductive DoneReason where
  | none
  | terminal
  | cap
  deriving DecidableEq, Repr

/-- The record of FRAME_META (10_state.md R34). -/
structure FrameMeta where
  gain : Option (BitVec 1)
  itime : Option (BitVec 17)
  ch : Option (BitVec 3)
  deriving DecidableEq, Repr

/-- What a frame-buffer cell that is not listed reads as: FILL since the last CAP_START (43_sequencer.md R190), or a draw
since the power-up or reset that drew it (10_state.md R35; log 6). -/
inductive FbBase where
  | filled (v : Sample)
  | powerOn (draw : Nat)
  deriving DecidableEq, Repr

/-- FB (10_state.md R35): the cells that differ from `base`, by rising address (log 6). -/
structure FrameBuffer where
  base : FbBase
  cells : List (Nat × Sample)
  deriving DecidableEq, Repr

/-- DOC's decoded response (41_classifier.md R150). -/
structure DecodedResponse where
  echo : Byte
  dt : Byte
  contUpd : Option Bool
  err : Option ErrCode
  chUpd : Option (BitVec 3)
  row : Option Byte
  samples : List Sample
  deriving DecidableEq, Repr

/-- What a step puts out: a result record on a port (30_encoding.md R80), or the report the transport reads from TX
(10_state.md R36). -/
inductive Output where
  | record (port : Port) (bytes : List Byte)
  | report (bytes : Report)
  deriving DecidableEq, Repr

/-- The block's state: what its operations read and write. The elements up to `txValid` are the spec's (10_state.md
R22..R36); `inputs`, `output` and `draws` are the model's own (logs 3, 4, 5). The elaboration parameters are no part of it:
an operation takes them as an argument (00_scope.md R8). -/
structure Block where
  /-- STATE (10_state.md R22). -/
  phase : Phase
  /-- CONT, the continuation flag (10_state.md R24). -/
  cont : Bool
  /-- ATTEMPTS (10_state.md R25). -/
  attempts : BitVec 8
  /-- DIM, the latched frame dimension (10_state.md R26). -/
  dim : BitVec 5
  /-- ACTIVE_CH (10_state.md R27). -/
  activeCh : Option (BitVec 3)
  /-- ERR, the capture failure reason (10_state.md R28). -/
  err : ErrCode
  /-- DONE_REASON (10_state.md R29). -/
  doneReason : DoneReason
  /-- CAP, the attempt cap (10_state.md R30). -/
  cap : BitVec 8
  /-- RTO_MS, the read timeout the transport reads (10_state.md R31). -/
  rtoMs : BitVec 32
  /-- GAIN_MODE (10_state.md R32). -/
  gainMode : Option (BitVec 1)
  /-- INT_TIME_MS (10_state.md R33). -/
  intTimeMs : Option (BitVec 17)
  /-- FRAME_META (10_state.md R34). -/
  frameMeta : Option FrameMeta
  /-- FB (10_state.md R35). -/
  fb : FrameBuffer
  /-- TX, the transmit report register (10_state.md R36). -/
  tx : Report
  /-- TX_VALID (10_state.md R36). -/
  txValid : Bool
  /-- The model's own: what reaches the block next, in order (20_memory.md R73). -/
  inputs : List Input
  /-- The model's own: what the last operation put out (30_encoding.md R80). -/
  output : Option Output
  /-- The model's own: the number of the next draw (00_scope.md R15). -/
  draws : Nat
  deriving DecidableEq, Repr

/-- What the host's `exec` and `step` take in their one argument: the block's state, and the argument `params` of the
machine it is a state of (00_scope.md R8; log 1). Every operation is a function of the parameters from block state to block
state (`State.operate`), so none can change them; `machine` is the machine that takes them as its argument. -/
structure State extends Block where
  /-- The elaboration parameters: fixed when the instance is built (00_scope.md R8). -/
  params : Params
  deriving DecidableEq, Repr

/-- Why a step stops with a fault. The hardware has no such stop (00_scope.md R13, 30_encoding.md R99). -/
inductive Fault where
  /-- Raised by FRAME_READ alone, where it would read a frame-buffer address above 575, which 20_memory.md R60 says does
  not exist. It needs a DIM that 10_state.md R26 says is never held, so no run reaches it. Safe (log 16). -/
  | noSuchCell (addr : Nat)
  deriving DecidableEq, Repr

/-- Why an instruction has no meaning. -/
inductive Refusal where
  /-- An arm of `exec` whose instruction is not modelled. No arm answers it: every row of the table has its meaning. Safe. -/
  | notModelled (mnemonic : String)
  deriving DecidableEq, Repr

/-- The reset values of 70_reset_and_hazards.md R271, whatever the parameters; the reset is draw number `n`, which FB and
TX, unspecified there, are taken from (logs 6, 7). -/
def Block.reset (n : Nat) : Block where
  phase := .idle
  cont := false
  attempts := 0
  dim := 0
  activeCh := none
  err := .none
  doneReason := .none
  cap := Config.capDefault
  rtoMs := Config.readTimeoutDefault
  gainMode := none
  intTimeMs := none
  frameMeta := none
  fb := ⟨.powerOn n, []⟩
  tx := (List.range Config.reportBytes).map (Config.drawByte n)
  txValid := false
  inputs := []
  output := none
  draws := n + 1

/-- An instance with the given parameters right after power-up. -/
def resetWith (p : Params) : State := { toBlock := Block.reset 0, params := p }

/-- The machine right after power-up (70_reset_and_hazards.md R271), with the argument `Config.params`: what 00_scope.md R8
leaves OPEN is a free value, the rest its decided default (log 1). -/
def State.reset : State := resetWith Config.params

end Sys2Proof.Machine
end

