-- ==== Sys2Proof/Machine/Flags.lean ====
section
/-! DEFINITION. What the classifier resolves from a report's echo, data_type and status byte: the continuation update, the
error and the channel update (spec 41_classifier.md R142..R147), and the numbers the spec gives the codes. -/

namespace Sys2Proof.Machine

/-- GET_SET (41_classifier.md R142). -/
def getSet : List Byte := [0x01, 0x02, 0x12, 0x22, 0x32, 0x03]

/-- STATUS_SET (41_classifier.md R142). -/
def statusSet : List Byte := [0x07, 0x08, 0x0B]

/-- ROW_SET (41_classifier.md R142). -/
def rowSet : List Byte := [0x01, 0x02, 0x12, 0x22, 0x32]

/-- The get-reply case of 41_classifier.md R143. -/
def isGetReply (getEcho echo dt : Byte) : Bool := decide (echo = getEcho) && decide (dt ∈ getSet)

/-- cont_upd (41_classifier.md R144, R146, R147, in the order of R143). -/
def contUpdate (getEcho echo dt st : Byte) : Option Bool :=
  if isGetReply getEcho echo dt = true then
    if st = 0x0B then some false else if st = 0xF1 then some false else some true
  else if dt ∈ statusSet then some (decide (st ≠ 0x17))
  else none

/-- err (41_classifier.md R144, R146, R147). -/
def errUpdate (getEcho echo dt st : Byte) : Option ErrCode :=
  if isGetReply getEcho echo dt = true ∧ st = 0xF1 then some .sensorTimeout else none

/-- ch_upd (41_classifier.md R145): (dt >> 4) + 1 in a get reply. -/
def chUpdate (getEcho echo dt : Byte) : Option (BitVec 3) :=
  if isGetReply getEcho echo dt = true then some (((dt >>> 4) + 1).setWidth 3) else none

/-- The number of a STATE value (10_state.md R22). -/
def phaseCode : Phase → Byte
  | .idle => 0
  | .requesting => 1
  | .streaming => 2
  | .complete => 3
  | .failed => 4

/-- The number of an error code (60_exceptions.md R240). -/
def errCode : ErrCode → Byte
  | .none => 0
  | .payloadTooLarge => 1
  | .truncatedResponse => 2
  | .sensorTimeout => 3
  | .timedOut => 4
  | .transportError => 5
  | .maxAttemptsExceeded => 6
  | .illegalState => 7
  | .invalidArgument => 8
  | .protocolMismatch => 9
  | .illegalOp => 10

/-- The number of a DONE_REASON (10_state.md R29). -/
def doneCode : DoneReason → Byte
  | .none => 0
  | .terminal => 1
  | .cap => 2

end Sys2Proof.Machine
end

