-- ==== Sys2Proof/Machine/Mapper.lean ====
section
/-! DEFINITION. The quadrant-to-pixel address mapper (spec 42_mapper.md R170..R177): combinational, no state, no error. -/

namespace Sys2Proof.Machine

/-- Mode(dt) (42_mapper.md R171): 12, 24 or none. -/
def modeOf (dt : Byte) : Option (BitVec 5) :=
  if dt = 0x01 then some 12
  else if dt = 0x02 ∨ dt = 0x12 ∨ dt = 0x22 ∨ dt = 0x32 then some 24
  else none

/-- The quadrant, data_type >> 4 (30_encoding.md R93). -/
def quadrantOf (dt : Byte) : Byte := dt >>> 4

/-- ColBase(q) = 12 × (q & 1) (42_mapper.md R173). -/
def colBase (q : Byte) : Nat := 12 * (q &&& 1).toNat

/-- The mapper's outputs (42_mapper.md R170): the address has 10 bits. -/
structure MapperOut where
  mode : Option (BitVec 5)
  r : Nat
  c : Nat
  a : BitVec 10
  we : Bool
  deriving DecidableEq, Repr

/-- The pixel column of sample k (42_mapper.md R172). -/
def pixelCol (mode : BitVec 5) (dt : Byte) (k : Nat) : Nat :=
  if mode = 12 then k else colBase (quadrantOf dt) + k

/-- The mapper (42_mapper.md R171..R174); `dim` is the dimension in force. The address output is the low 10 bits of R172's
r * 24 + c: all of it wherever `we` holds (R174), where alone it is used. DEDUCED, safe (log 15). -/
def mapPixel (dt row : Byte) (k : Nat) (dim : BitVec 5) : MapperOut :=
  match modeOf dt with
  | none => ⟨none, 0, 0, 0, false⟩
  | some m =>
    ⟨some m, row.toNat, pixelCol m dt k, BitVec.ofNat 10 (row.toNat * Config.fbStride + pixelCol m dt k),
      decide (m = dim) && decide (row.toNat < dim.toNat)⟩

/-- Addr(dt, row, k): the mapper's address output, which does not depend on the dimension (43_sequencer.md R203). -/
def pixelAddr (dt row : Byte) (k : Nat) : Nat := (mapPixel dt row k 0).a.toNat

end Sys2Proof.Machine
end

