-- ==== Sys2Proof/Machine/Ops.lean ====
section
/-! DEFINITION. The named operations over the state: frame-buffer cells, result records, failure entry and return (the
trap analogue, spec 60_exceptions.md R246, R247), completion, the application of one packet, reset, and fetching. -/

namespace Sys2Proof.Machine

/-! ## An operation of an instance -/

/-- An operation of the instance: `f` takes the parameters as its argument and rewrites the block's state. No operation
changes a parameter (00_scope.md R8). -/
def State.operate (s : State) (f : Params → Block → Block) : State := { s with toBlock := f s.params s.toBlock }

/-! ## The frame buffer (10_state.md R35, 20_memory.md R61; log 6) -/

/-- What a cell that is not listed reads as. -/
def baseRead (b : FbBase) (a : Nat) : Sample :=
  match b with
  | .filled v => v
  | .powerOn n => Config.drawCell n a

/-- The cell at address a in a rising list. -/
def cellsRead (b : FbBase) : List (Nat × Sample) → Nat → Sample
  | [], a => baseRead b a
  | (x, v) :: rest, a => if x = a then v else cellsRead b rest a

/-- Writing v at address a in a rising list; a cell equal to its base value is not listed. -/
def cellsWrite (b : FbBase) : List (Nat × Sample) → Nat → Sample → List (Nat × Sample)
  | [], a, v => if v = baseRead b a then [] else [(a, v)]
  | (x, w) :: rest, a, v =>
    if a < x then (if v = baseRead b a then (x, w) :: rest else (a, v) :: (x, w) :: rest)
    else if a = x then (if v = baseRead b a then rest else (a, v) :: rest)
    else (x, w) :: cellsWrite b rest a v

/-- The canonical form of a list of cells from address `lo` on: rising, below 576, none equal to its base value. -/
def cellsWf (b : FbBase) (lo : Nat) : List (Nat × Sample) → Bool
  | [] => true
  | (a, v) :: rest => decide (lo ≤ a) && decide (a < Config.fbCells) && decide (v ≠ baseRead b a) && cellsWf b (a + 1) rest

/-- `FB[a]` (00_scope.md R12). -/
def FrameBuffer.read (fb : FrameBuffer) (a : Nat) : Sample := cellsRead fb.base fb.cells a

/-- `FB[a]` where the address exists: 0..575 (20_memory.md R60). -/
def FrameBuffer.read? (fb : FrameBuffer) (a : Nat) : Option Sample :=
  if a < Config.fbCells then some (fb.read a) else none

/-- `FB[a] <- v` (00_scope.md R12). -/
def FrameBuffer.write (fb : FrameBuffer) (a : Nat) (v : Sample) : FrameBuffer :=
  { fb with cells := cellsWrite fb.base fb.cells a v }

/-- The frame buffer's canonical form. -/
def FrameBuffer.wf (fb : FrameBuffer) : Bool := cellsWf fb.base 0 fb.cells

/-- Every cell holds v (43_sequencer.md R190: `for a in 0..575: FB[a] <- FILL`). -/
def FrameBuffer.filledWith (v : Sample) : FrameBuffer := ⟨.filled v, []⟩

/-- The row write (43_sequencer.md R206): the 12 cells Addr(dt, row, k), in ascending k. -/
def FrameBuffer.writeRow (fb : FrameBuffer) (dt row : Byte) (samples : List Sample) : FrameBuffer :=
  (List.range Config.samplesPerPacket).foldl (fun f k => f.write (pixelAddr dt row k) (samples.getD k 0)) fb

/-! ## Result records (30_encoding.md R80, R81) -/

/-- The result record of a transaction, on its port. -/
def respond (port : Port) (bytes : List Byte) (s : Block) : Block := { s with output := some (.record port bytes) }

/-- `return`: error code NONE, then the data (00_scope.md R13, 30_encoding.md R81). -/
def returnData (port : Port) (data : List Byte) (s : Block) : Block := respond port (errCode .none :: data) s

/-- `raise E` of an operation without a state byte: byte 0 alone (30_encoding.md R81). -/
def raiseError (port : Port) (e : ErrCode) (s : Block) : Block := respond port [errCode e] s

/-- `return STATE`: NONE and the state byte, the value of STATE after the operation (30_encoding.md R81). -/
def returnState (port : Port) (s : Block) : Block := respond port [errCode .none, phaseCode s.phase] s

/-- `raise E` of an operation that appends the state byte (30_encoding.md R81). -/
def raiseWithState (port : Port) (e : ErrCode) (s : Block) : Block := respond port [errCode e, phaseCode s.phase] s

/-! ## Failure entry and return, completion -/

/-- FAIL(cause): the entry into FAILED (43_sequencer.md R192, 60_exceptions.md R246). -/
def failCapture (cause : ErrCode) (s : Block) : Block := { s with phase := .failed, err := cause, txValid := false }

/-- The return from a failure, and the cancellation of whatever is in progress: what ABORT writes (43_sequencer.md R201,
60_exceptions.md R247). -/
def returnToIdle (s : Block) : Block :=
  { s with
    phase := .idle
    cont := false
    attempts := 0
    dim := 0
    err := .none
    doneReason := .none
    frameMeta := none
    txValid := false }

/-- COMPLETE(reason): the entry into COMPLETE (43_sequencer.md R193). -/
def completeCapture (reason : DoneReason) (s : Block) : Block :=
  { s with
    phase := .complete
    doneReason := reason
    frameMeta := some ⟨s.gainMode, s.intTimeMs, s.activeCh⟩ }

/-- What CAP_START writes once its report is built (43_sequencer.md R190); also the return from a failure that starts a
fresh capture (60_exceptions.md R247). -/
def startCapture (p : Params) (rep : Report) (s : Block) : Block :=
  { s with
    fb := FrameBuffer.filledWith p.fill
    dim := 0
    cont := true
    attempts := 0
    err := .none
    doneReason := .none
    frameMeta := none
    tx := rep
    txValid := true
    phase := .requesting }

/-! ## One packet (43_sequencer.md R195, R196, R203) -/

/-- The latch of DIM (43_sequencer.md R205). -/
def latchDim (m : BitVec 5) (s : Block) : Block := if s.dim = 0 then { s with dim := m } else s

/-- ConsumeRow(d) (43_sequencer.md R203). -/
def consumeRow (d : DecodedResponse) (s : Block) : Block :=
  match modeOf d.dt, d.row with
  | some m, some row =>
    let t := latchDim m s
    if m ≠ t.dim then t
    else if t.dim.toNat ≤ row.toNat then t
    else { t with fb := t.fb.writeRow d.dt row d.samples }
  | _, _ => s

/-- ATTEMPTS <- ATTEMPTS + 1 (43_sequencer.md R196). -/
def countAttempt (s : Block) : Block := { s with attempts := s.attempts + 1 }

/-- `ATTEMPTS + 1 >= CAP`, with the sum taken exactly (43_sequencer.md R210, 00_scope.md R11; log 14). -/
def nextReachesCap (s : Block) : Bool := decide (s.cap.toNat ≤ s.attempts.toNat + 1)

/-- A truncated packet in STREAMING (43_sequencer.md R195, R196). -/
def ignoreTruncated (p : Params) (s : Block) : Block :=
  if p.countTruncated = true then
    raiseWithState .transport .truncatedResponse
      (if nextReachesCap s = true then completeCapture .cap (countAttempt s) else countAttempt s)
  else raiseWithState .transport .truncatedResponse s

/-- The classifier's channel update (41_classifier.md R145, R151). -/
def updateChannel (u : Option (BitVec 3)) (s : Block) : Block :=
  { s with activeCh := u.or s.activeCh }

/-- The writes that every untruncated packet makes (43_sequencer.md R196): the channel update, the continuation update
(none: CONT keeps its prior value, 41_classifier.md R147) and the attempt. The classification was one draw (00_scope.md
R15; log 5). -/
def countPacket (d : DecodedResponse) (s : Block) : Block :=
  { s with
    activeCh := d.chUpd.or s.activeCh
    cont := d.contUpd.getD s.cont
    attempts := s.attempts + 1
    draws := s.draws + 1 }

/-- A classified packet in STREAMING: the part of PKT_IN after `d <- Classify(b, L)` (43_sequencer.md R196). -/
def applyPacket (d : DecodedResponse) (s : Block) : Block :=
  let t := countPacket d s
  if d.err = some .sensorTimeout then
    raiseWithState .transport .sensorTimeout (failCapture .sensorTimeout t)
  else if t.cont = true then
    if nextReachesCap s = true then returnState .transport (completeCapture .cap (consumeRow d t))
    else returnState .transport (consumeRow d t)
  else returnState .transport (completeCapture .terminal t)

/-- PKT_IN of a packet whose classification is d (43_sequencer.md R196): its checks in order, then the packet. -/
def deliver (p : Params) (len : Byte) (d : DecodedResponse) (s : Block) : Block :=
  if s.phase ≠ .streaming then raiseWithState .transport .illegalState s
  else if 64 < len.toNat then raiseWithState .transport .invalidArgument s
  else if len.toNat < Config.minResponseBytes then ignoreTruncated p s
  else applyPacket d s

/-! ## Rejected bytes, reads of TX, reset, fetch -/

/-- The op codes whose result always appends the state byte (30_encoding.md R81). -/
def appendsState (op : Byte) : Bool :=
  decide (op = 0x11 ∨ op = 0x12 ∨ op = 0x13 ∨ op = 0x14 ∨ op = 0x15)

/-- The transport's read of TX as bytes (10_state.md R36). -/
def emit (r : Report) (s : Block) : Block := { s with output := some (.report r) }

/-- What the block answers to bytes that are no instruction: the error of 30_encoding.md R82 and R95, and nothing else
changes. A read of TX gives the register as it stands; while TX_VALID = 0 its bytes are a draw (93_implementation_defined.md
I10; log 8). -/
def reject (e : DecodeError) (s : Block) : Block :=
  match e with
  | .emptyTransaction port => raiseError port .invalidArgument s
  | .wrongPort port _ => raiseError port .illegalOp s
  | .wrongLength port op =>
    if appendsState op = true then raiseWithState port .invalidArgument s else raiseError port .invalidArgument s
  | .inboundLength => raiseWithState .transport .invalidArgument s
  | .notReport r => emit r s
  | .txNotValid =>
    emit ((List.range Config.reportBytes).map (Config.drawByte s.draws)) { s with draws := s.draws + 1 }

/-- RESET (70_reset_and_hazards.md R270): every element to its reset value; what has not yet reached the block is not an
element of it (log 17). -/
def resetState (s : Block) : Block := { Block.reset s.draws with inputs := s.inputs }

/-- What the decoder reads from an event; none for RESET, which is no operation (70_reset_and_hazards.md R270). -/
def fetch (p : Params) (s : Block) : Input → Option Decoded
  | .transaction port bytes => some (decode p.getEcho p.protocol (.transaction port bytes))
  | .inbound len r => some (decode p.getEcho p.protocol (.inbound len r))
  | .txRead =>
    if s.txValid = true then some (decode p.getEcho p.protocol (.outbound s.tx))
    else some (.rejected .txNotValid)
  | .reset => none

end Sys2Proof.Machine
end

