-- ==== Sys2Proof/Machine/Classifier.lean ====
section
/-! DEFINITION. The response classifier (spec 41_classifier.md). -/

namespace Sys2Proof.Machine

open Host

/-- The decoded response of a row-carrying report: row index and 12 samples (41_classifier.md R148..R150). -/
def rowResponse (p : Params) (n : Nat) (len : Byte) (body : List Byte) (echo dt st : Byte) (contUpd : Option Bool)
    (err : Option ErrCode) (chUpd : Option (BitVec 3)) : DecodedResponse :=
  ⟨echo, dt, contUpd, err, chUpd, some st, sampleRow p.sampleOrder n len.toNat body⟩

/-- The decoded response of a report that carries no row (41_classifier.md R148..R150). -/
def plainResponse (echo dt : Byte) (contUpd : Option Bool) (err : Option ErrCode) (chUpd : Option (BitVec 3)) :
    DecodedResponse :=
  ⟨echo, dt, contUpd, err, chUpd, none, []⟩

/-- Classify(b, L) for L >= 6 (41_classifier.md R141..R150); `n` numbers its draw. -/
def classifyReport (p : Params) (n : Nat) (len : Byte) (r : Report) : DecodedResponse :=
  let echo := byteAt r 2
  let dt := byteAt r 4
  let st := byteAt r 5
  if dt ∈ rowSet then
    rowResponse p n len (r.drop Config.sampleOffset) echo dt st (contUpdate p.getEcho echo dt st)
      (errUpdate p.getEcho echo dt st) (chUpdate p.getEcho echo dt)
  else
    plainResponse echo dt (contUpdate p.getEcho echo dt st) (errUpdate p.getEcho echo dt st) (chUpdate p.getEcho echo dt)

/-- Byte 3 of the CLASSIFY record (30_encoding.md R83). -/
def contByte : Option Bool → Byte
  | none => 0
  | some false => 1
  | some true => 2

/-- Byte 4 of the CLASSIFY record (30_encoding.md R83). -/
def channelByte : Option (BitVec 3) → Byte
  | none => 0
  | some c => c.setWidth 8

/-- Byte 5 of the CLASSIFY record (30_encoding.md R83). -/
def errByte : Option ErrCode → Byte
  | none => 0
  | some e => errCode e

/-- Bytes 6 and 7 of the CLASSIFY record (30_encoding.md R83). -/
def rowBytes : Option Byte → List Byte
  | none => [0, 0]
  | some row => [1, row]

/-- Bytes 9..32 of the CLASSIFY record: big-endian samples, zeros where there are none (30_encoding.md R83). -/
def samplesBytes (samples : List Sample) : List Byte :=
  samples.flatMap bytes16 ++ List.replicate (2 * (Config.samplesPerPacket - samples.length)) 0

/-- The CLASSIFY result record after byte 0 (30_encoding.md R83; log 12). -/
def decodedRecord (d : DecodedResponse) : List Byte :=
  [d.echo, d.dt, contByte d.contUpd, channelByte d.chUpd, errByte d.err] ++ rowBytes d.row ++
    BitVec.ofNat 8 d.samples.length :: samplesBytes d.samples

/-- CLASSIFY on a legal length: the channel update and the record; the classification is one draw (41_classifier.md R151;
log 5). -/
def classifyOne (p : Params) (len : Byte) (r : Report) (s : Block) : Block :=
  let d := classifyReport p s.draws len r
  returnData .host (decodedRecord d) (updateChannel d.chUpd { s with draws := s.draws + 1 })

/-- CLASSIFY (41_classifier.md R151). -/
def execClassify (len : Byte) (r : Report) (s : State) : Outcome State Fault Refusal :=
  .next (s.operate fun p b =>
    if 64 < len.toNat then raiseError .host .invalidArgument b
    else if len.toNat < Config.minResponseBytes then raiseError .host .truncatedResponse b
    else classifyOne p len r b)

end Sys2Proof.Machine
end

