-- ==== Sys2Proof/Machine/Framer.lean ====
section
/-! DEFINITION. The packet framer and the checksum validator (spec 40_framer.md), and the outbound report rows (spec
30_encoding.md R86, R88). -/

namespace Sys2Proof.Machine

open Host

/-- ENC_FRAMED's checks and report (40_framer.md R113). -/
def buildFramed (p : Params) (cmd dt : Byte) (payload : List Byte) : Except ErrCode Report :=
  if p.protocol ≠ .framed then .error .protocolMismatch
  else if Config.maxFramedPayload < payload.length then .error .payloadTooLarge
  else .ok (framedReport cmd dt payload)

/-- ENC_SIMPLE's checks and report (40_framer.md R116). -/
def buildSimple (p : Params) (opcode : Byte) (args : List Byte) : Except ErrCode Report :=
  if p.protocol ≠ .simple then .error .protocolMismatch
  else if Config.maxSimpleParams < args.length then .error .payloadTooLarge
  else .ok (simpleReport opcode args)

/-- The report of a Command under PROTOCOL (40_framer.md R117). -/
def encodeCommand (p : Params) (c : Command) : Except ErrCode Report :=
  match p.protocol with
  | .framed => buildFramed p (semFramedOf p c).cmd (semFramedOf p c).dt (semFramedOf p c).payload
  | .simple => buildSimple p (semSimpleOf p c).opcode (semSimpleOf p c).args

/-- ENC_CMD's checks and report (40_framer.md R117). -/
def buildCommand (p : Params) (kind : Byte) (arg : BitVec 24) : Except ErrCode Report :=
  match commandOf kind arg with
  | some c => encodeCommand p c
  | none => .error .invalidArgument

/-- The result record of a framer operation: the report, or the error (30_encoding.md R81). -/
def respondReport (r : Except ErrCode Report) (s : Block) : Block :=
  match r with
  | .ok rep => returnData .host rep s
  | .error e => raiseError .host e s

/-- ENC_SIMPLE (40_framer.md R116). -/
def execEncSimple (opcode : Byte) (args : List Byte) (s : State) : Outcome State Fault Refusal :=
  .next (s.operate fun p b => respondReport (buildSimple p opcode args) b)

/-- ENC_FRAMED (40_framer.md R113). -/
def execEncFramed (cmd dt : Byte) (payload : List Byte) (s : State) : Outcome State Fault Refusal :=
  .next (s.operate fun p b => respondReport (buildFramed p cmd dt payload) b)

/-- ENC_CMD (40_framer.md R117). -/
def execEncCmd (kind : Byte) (arg : BitVec 24) (s : State) : Outcome State Fault Refusal :=
  .next (s.operate fun p b => respondReport (buildCommand p kind arg) b)

/-- CHK_VALIDATE (40_framer.md R121): byte 0 is always NONE, the verdict is the data. -/
def execChkValidate (r : Report) (s : State) : Outcome State Fault Refusal :=
  .next (s.operate fun _ b => returnData .host [verdictCode (validate r)] b)

/-- An outbound report leaves the block, if the instance's PROTOCOL has its layout and it holds what it carries; else it
is never produced (40_framer.md R120; log 10). -/
def emitBuilt (r : Except ErrCode Report) (s : Block) : Block :=
  match r with
  | .ok rep => emit rep s
  | .error e => raiseError .transport e s

/-- RPT_FRAMED (30_encoding.md R86): the framed report the transport reads from TX (log 10). -/
def execRptFramed (cmd dt : Byte) (payload : List Byte) (s : State) : Outcome State Fault Refusal :=
  .next (s.operate fun p b => emitBuilt (buildFramed p cmd dt payload) b)

/-- RPT_SIMPLE (30_encoding.md R88): the simple report the transport reads from TX (log 10). -/
def execRptSimple (opcode : Byte) (args : List Byte) (s : State) : Outcome State Fault Refusal :=
  .next (s.operate fun p b => emitBuilt (buildSimple p opcode args) b)

/-- ILLEGAL_OP (30_encoding.md R96): an unassigned op code, on the port it came in on. -/
def execIllegalOp (port : Port) (_op : Byte) (_rest : List Byte) (s : State) : Outcome State Fault Refusal :=
  .next (s.operate fun _ b => raiseError port .illegalOp b)

end Sys2Proof.Machine
end

