-- ==== Sys2Proof/Machine/Sequencer.lean ====
section
/-! DEFINITION. The write-sequencer's operations (spec 43_sequencer.md R190..R201). -/

namespace Sys2Proof.Machine

open Host

/-- A capture is in flight: REQUESTING or STREAMING (43_sequencer.md R190, R200, R213). -/
def inFlight (s : Block) : Bool := decide (s.phase = .requesting ∨ s.phase = .streaming)

/-- CAP_START (43_sequencer.md R190). -/
def execCapStart (ch : Byte) (s : State) : Outcome State Fault Refusal :=
  .next (s.operate fun p b =>
    if inFlight b = true then raiseError .host .illegalState b
    else if ch.toNat < 1 ∨ 4 < ch.toNat then raiseError .host .invalidArgument b
    else match buildCommand p 3 (ch.setWidth 24) with
      | .error e => raiseError .host e b
      | .ok rep => returnData .host rep (startCapture p rep b))

/-- SEND_ACK (43_sequencer.md R191). -/
def execSendAck (st : Byte) (s : State) : Outcome State Fault Refusal :=
  .next (s.operate fun _ b =>
    if b.phase ≠ .requesting then raiseWithState .transport .illegalState b
    else if 1 < st.toNat then raiseWithState .transport .invalidArgument b
    else if st = 0 then returnState .transport { b with txValid := false, phase := .streaming }
    else returnState .transport (failCapture .transportError { b with txValid := false }))

/-- PKT_IN (43_sequencer.md R196). -/
def execPktIn (len : Byte) (r : Report) (s : State) : Outcome State Fault Refusal :=
  .next (s.operate fun p b => deliver p len (classifyReport p b.draws len r) b)

/-- RD_TIMEOUT (43_sequencer.md R199). -/
def execRdTimeout (s : State) : Outcome State Fault Refusal :=
  .next (s.operate fun _ b =>
    if b.phase ≠ .streaming then raiseWithState .transport .illegalState b
    else returnState .transport (failCapture .timedOut b))

/-- XPORT_ERR (43_sequencer.md R200). -/
def execXportErr (s : State) : Outcome State Fault Refusal :=
  .next (s.operate fun _ b =>
    if inFlight b = true then returnState .transport (failCapture .transportError b)
    else raiseWithState .transport .illegalState b)

/-- ABORT (43_sequencer.md R201). -/
def execAbort (s : State) : Outcome State Fault Refusal :=
  .next (s.operate fun _ b => returnState .host (returnToIdle b))

end Sys2Proof.Machine
end

