-- ==== Sys2Proof/Machine/Inbound.lean ====
section
/-! DEFINITION. The inbound classes of the opcode table (spec 30_encoding.md R91, R92): what the delivery of a report of each
class does. A class fixes what the classifier resolves (spec 41_classifier.md R144..R148); the rest is PKT_IN's (spec
43_sequencer.md R196; log 9). -/

namespace Sys2Proof.Machine

open Host

/-- Delivery of a report of a row-carrying class: its row index is `st`, its samples are extracted (41_classifier.md R148,
R149). -/
def deliverRow (params : Params) (p : Packet) (echo dt st : Byte) (contUpd : Option Bool) (err : Option ErrCode)
    (chUpd : Option (BitVec 3)) (s : Block) : Block :=
  deliver params p.len (rowResponse params s.draws p.len p.body echo dt st contUpd err chUpd) s

/-- Delivery of a report of a class that carries no row (41_classifier.md R148). -/
def deliverPlain (params : Params) (p : Packet) (echo dt : Byte) (contUpd : Option Bool) (err : Option ErrCode)
    (chUpd : Option (BitVec 3)) (s : Block) : Block :=
  deliver params p.len (plainResponse echo dt contUpd err chUpd) s

/-- Delivery of a truncated report: PKT_IN with L < 6 (43_sequencer.md R195). -/
def deliverTruncated (params : Params) (s : Block) : Block :=
  if s.phase ≠ .streaming then raiseWithState .transport .illegalState s else ignoreTruncated params s

/-- IN_GET_01 (41_classifier.md R144, R145): continuation true, channel 1, row and samples. -/
def execInGet01 (p : Packet) (st : Byte) (s : State) : Outcome State Fault Refusal :=
  .next (s.operate fun params b => deliverRow params p params.getEcho 0x01 st (some true) none (some 1) b)

/-- IN_GET_01_END (41_classifier.md R144, R145): continuation false, channel 1. -/
def execInGet01End (p : Packet) (s : State) : Outcome State Fault Refusal :=
  .next (s.operate fun params b => deliverRow params p params.getEcho 0x01 0x0B (some false) none (some 1) b)

/-- IN_GET_01_STO (41_classifier.md R144, R145): continuation false, SENSOR_TIMEOUT, channel 1. -/
def execInGet01Sto (p : Packet) (s : State) : Outcome State Fault Refusal :=
  .next (s.operate fun params b => deliverRow params p params.getEcho 0x01 0xF1 (some false) (some .sensorTimeout) (some 1) b)

/-- IN_GET_02 (41_classifier.md R144, R145): continuation true, channel 1, row and samples. -/
def execInGet02 (p : Packet) (st : Byte) (s : State) : Outcome State Fault Refusal :=
  .next (s.operate fun params b => deliverRow params p params.getEcho 0x02 st (some true) none (some 1) b)

/-- IN_GET_02_END (41_classifier.md R144, R145): continuation false, channel 1. -/
def execInGet02End (p : Packet) (s : State) : Outcome State Fault Refusal :=
  .next (s.operate fun params b => deliverRow params p params.getEcho 0x02 0x0B (some false) none (some 1) b)

/-- IN_GET_02_STO (41_classifier.md R144, R145): continuation false, SENSOR_TIMEOUT, channel 1. -/
def execInGet02Sto (p : Packet) (s : State) : Outcome State Fault Refusal :=
  .next (s.operate fun params b => deliverRow params p params.getEcho 0x02 0xF1 (some false) (some .sensorTimeout) (some 1) b)

/-- IN_GET_12 (41_classifier.md R144, R145): continuation true, channel 2, row and samples. -/
def execInGet12 (p : Packet) (st : Byte) (s : State) : Outcome State Fault Refusal :=
  .next (s.operate fun params b => deliverRow params p params.getEcho 0x12 st (some true) none (some 2) b)

/-- IN_GET_12_END (41_classifier.md R144, R145): continuation false, channel 2. -/
def execInGet12End (p : Packet) (s : State) : Outcome State Fault Refusal :=
  .next (s.operate fun params b => deliverRow params p params.getEcho 0x12 0x0B (some false) none (some 2) b)

/-- IN_GET_12_STO (41_classifier.md R144, R145): continuation false, SENSOR_TIMEOUT, channel 2. -/
def execInGet12Sto (p : Packet) (s : State) : Outcome State Fault Refusal :=
  .next (s.operate fun params b => deliverRow params p params.getEcho 0x12 0xF1 (some false) (some .sensorTimeout) (some 2) b)

/-- IN_GET_22 (41_classifier.md R144, R145): continuation true, channel 3, row and samples. -/
def execInGet22 (p : Packet) (st : Byte) (s : State) : Outcome State Fault Refusal :=
  .next (s.operate fun params b => deliverRow params p params.getEcho 0x22 st (some true) none (some 3) b)

/-- IN_GET_22_END (41_classifier.md R144, R145): continuation false, channel 3. -/
def execInGet22End (p : Packet) (s : State) : Outcome State Fault Refusal :=
  .next (s.operate fun params b => deliverRow params p params.getEcho 0x22 0x0B (some false) none (some 3) b)

/-- IN_GET_22_STO (41_classifier.md R144, R145): continuation false, SENSOR_TIMEOUT, channel 3. -/
def execInGet22Sto (p : Packet) (s : State) : Outcome State Fault Refusal :=
  .next (s.operate fun params b => deliverRow params p params.getEcho 0x22 0xF1 (some false) (some .sensorTimeout) (some 3) b)

/-- IN_GET_32 (41_classifier.md R144, R145): continuation true, channel 4, row and samples. -/
def execInGet32 (p : Packet) (st : Byte) (s : State) : Outcome State Fault Refusal :=
  .next (s.operate fun params b => deliverRow params p params.getEcho 0x32 st (some true) none (some 4) b)

/-- IN_GET_32_END (41_classifier.md R144, R145): continuation false, channel 4. -/
def execInGet32End (p : Packet) (s : State) : Outcome State Fault Refusal :=
  .next (s.operate fun params b => deliverRow params p params.getEcho 0x32 0x0B (some false) none (some 4) b)

/-- IN_GET_32_STO (41_classifier.md R144, R145): continuation false, SENSOR_TIMEOUT, channel 4. -/
def execInGet32Sto (p : Packet) (s : State) : Outcome State Fault Refusal :=
  .next (s.operate fun params b => deliverRow params p params.getEcho 0x32 0xF1 (some false) (some .sensorTimeout) (some 4) b)

/-- IN_GET_03 (41_classifier.md R144, R145): continuation true, channel 1, no row. -/
def execInGet03 (p : Packet) (_st : Byte) (s : State) : Outcome State Fault Refusal :=
  .next (s.operate fun params b => deliverPlain params p params.getEcho 0x03 (some true) none (some 1) b)

/-- IN_GET_03_END (41_classifier.md R144, R145): continuation false, channel 1. -/
def execInGet03End (p : Packet) (s : State) : Outcome State Fault Refusal :=
  .next (s.operate fun params b => deliverPlain params p params.getEcho 0x03 (some false) none (some 1) b)

/-- IN_GET_03_STO (41_classifier.md R144, R145): continuation false, SENSOR_TIMEOUT, channel 1. -/
def execInGet03Sto (p : Packet) (s : State) : Outcome State Fault Refusal :=
  .next (s.operate fun params b => deliverPlain params p params.getEcho 0x03 (some false) (some .sensorTimeout) (some 1) b)

/-- IN_ROW_01_RETAIN (41_classifier.md R147, R148): no update, row and samples. -/
def execInRow01Retain (p : Packet) (echo st : Byte) (s : State) : Outcome State Fault Refusal :=
  .next (s.operate fun params b => deliverRow params p echo 0x01 st none none none b)

/-- IN_ROW_02_RETAIN (41_classifier.md R147, R148): no update, row and samples. -/
def execInRow02Retain (p : Packet) (echo st : Byte) (s : State) : Outcome State Fault Refusal :=
  .next (s.operate fun params b => deliverRow params p echo 0x02 st none none none b)

/-- IN_ROW_12_RETAIN (41_classifier.md R147, R148): no update, row and samples. -/
def execInRow12Retain (p : Packet) (echo st : Byte) (s : State) : Outcome State Fault Refusal :=
  .next (s.operate fun params b => deliverRow params p echo 0x12 st none none none b)

/-- IN_ROW_22_RETAIN (41_classifier.md R147, R148): no update, row and samples. -/
def execInRow22Retain (p : Packet) (echo st : Byte) (s : State) : Outcome State Fault Refusal :=
  .next (s.operate fun params b => deliverRow params p echo 0x22 st none none none b)

/-- IN_ROW_32_RETAIN (41_classifier.md R147, R148): no update, row and samples. -/
def execInRow32Retain (p : Packet) (echo st : Byte) (s : State) : Outcome State Fault Refusal :=
  .next (s.operate fun params b => deliverRow params p echo 0x32 st none none none b)

/-- IN_STATUS_07_END (41_classifier.md R146): continuation false. -/
def execInStatus07End (p : Packet) (echo : Byte) (s : State) : Outcome State Fault Refusal :=
  .next (s.operate fun params b => deliverPlain params p echo 0x07 (some false) none none b)

/-- IN_STATUS_07 (41_classifier.md R146): continuation true. -/
def execInStatus07 (p : Packet) (echo _st : Byte) (s : State) : Outcome State Fault Refusal :=
  .next (s.operate fun params b => deliverPlain params p echo 0x07 (some true) none none b)

/-- IN_STATUS_08_END (41_classifier.md R146): continuation false. -/
def execInStatus08End (p : Packet) (echo : Byte) (s : State) : Outcome State Fault Refusal :=
  .next (s.operate fun params b => deliverPlain params p echo 0x08 (some false) none none b)

/-- IN_STATUS_08 (41_classifier.md R146): continuation true. -/
def execInStatus08 (p : Packet) (echo _st : Byte) (s : State) : Outcome State Fault Refusal :=
  .next (s.operate fun params b => deliverPlain params p echo 0x08 (some true) none none b)

/-- IN_STATUS_0B_END (41_classifier.md R146): continuation false. -/
def execInStatus0BEnd (p : Packet) (echo : Byte) (s : State) : Outcome State Fault Refusal :=
  .next (s.operate fun params b => deliverPlain params p echo 0x0B (some false) none none b)

/-- IN_STATUS_0B (41_classifier.md R146): continuation true. -/
def execInStatus0B (p : Packet) (echo _st : Byte) (s : State) : Outcome State Fault Refusal :=
  .next (s.operate fun params b => deliverPlain params p echo 0x0B (some true) none none b)

/-- IN_OTHER (41_classifier.md R147): no update, no row. -/
def execInOther (p : Packet) (echo dt _st : Byte) (s : State) : Outcome State Fault Refusal :=
  .next (s.operate fun params b => deliverPlain params p echo dt none none none b)

/-- IN_TRUNCATED (41_classifier.md R140, 43_sequencer.md R195). -/
def execInTruncated (_len : Byte) (_r : Report) (s : State) : Outcome State Fault Refusal :=
  .next (s.operate fun params b => deliverTruncated params b)

end Sys2Proof.Machine
end

