-- ==== Sys2Proof/Machine/Registers.lean ====
section
/-! DEFINITION. The register space and the frame read (spec 10_state.md R21, R37; 43_sequencer.md R211..R213). -/

namespace Sys2Proof.Machine

open Host

/-- The word of an option-typed element (10_state.md R21): VALID in bit 31, the value in the low bits. -/
def optionWord {w : Nat} : Option (BitVec w) → BitVec 32
  | some v => 0x80000000#32 ||| v.setWidth 32
  | none => 0

/-- A field of FRAME_META, none where there is no metadata (10_state.md R34; log 20). -/
def metaField {α : Type} (f : FrameMeta → Option α) (s : Block) : Option α := s.frameMeta.bind f

/-- Word(reg) (10_state.md R37); none for a register number the map does not list. -/
def regWord (reg : Byte) (s : Block) : Option (BitVec 32) :=
  if reg = 0x00 then some (s.cap.setWidth 32)
  else if reg = 0x01 then some s.rtoMs
  else if reg = 0x02 then some (optionWord s.gainMode)
  else if reg = 0x03 then some (optionWord s.intTimeMs)
  else if reg = 0x10 then some ((phaseCode s.phase).setWidth 32)
  else if reg = 0x11 then some (if s.cont = true then 1 else 0)
  else if reg = 0x12 then some (s.attempts.setWidth 32)
  else if reg = 0x13 then some (s.dim.setWidth 32)
  else if reg = 0x14 then some (optionWord s.activeCh)
  else if reg = 0x15 then some ((errCode s.err).setWidth 32)
  else if reg = 0x16 then some ((doneCode s.doneReason).setWidth 32)
  else if reg = 0x17 then some (optionWord (metaField FrameMeta.gain s))
  else if reg = 0x18 then some (optionWord (metaField FrameMeta.itime s))
  else if reg = 0x19 then some (optionWord (metaField FrameMeta.ch s))
  else if reg = 0x1A then some (s.dim.setWidth 32)
  else none

/-- The registers readable only in COMPLETE, 0x17..0x1A (10_state.md R37, access RO-C). -/
def frameRegister (reg : Byte) : Bool := decide (0x17 ≤ reg.toNat) && decide (reg.toNat ≤ 0x1A)

/-- STATUS_READ (43_sequencer.md R211). -/
def execStatusRead (reg : Byte) (s : State) : Outcome State Fault Refusal :=
  .next (s.operate fun _ b =>
    match regWord reg b with
    | none => raiseError .host .invalidArgument b
    | some w =>
      if frameRegister reg = true ∧ b.phase ≠ .complete then raiseError .host .illegalState b
      else returnData .host (bytes32 w) b)

/-- FRAME_READ (43_sequencer.md R212). An address above 575 does not exist (20_memory.md R60; log 16). -/
def execFrameRead (row col : Byte) (s : State) : Outcome State Fault Refusal :=
  if s.phase ≠ .complete then .next (s.operate fun _ b => raiseError .host .illegalState b)
  else if s.dim = 0 ∨ s.dim.toNat ≤ row.toNat ∨ s.dim.toNat ≤ col.toNat then
    .next (s.operate fun _ b => raiseError .host .invalidArgument b)
  else match s.fb.read? (row.toNat * Config.fbStride + col.toNat) with
    | some v => .next (s.operate fun _ b => returnData .host (bytes16 v) b)
    | none => .fault (.noSuchCell (row.toNat * Config.fbStride + col.toNat))

/-- The configuration register a legal CFG_WRITE writes (43_sequencer.md R213); none where the register or the value is
illegal. -/
def configWrite (reg : Byte) (v : BitVec 32) (s : Block) : Option Block :=
  if reg = 0x00 then
    if v.toNat < 1 ∨ 255 < v.toNat then none else some { s with cap := v.setWidth 8 }
  else if reg = 0x01 then
    if v = 0 then none else some { s with rtoMs := v }
  else if reg = 0x02 then
    if 1 < v.toNat then none else some { s with gainMode := some (v.setWidth 1) }
  else if reg = 0x03 then
    if v.toNat < 1 ∨ Config.integrationTimeMax < v.toNat then none else some { s with intTimeMs := some (v.setWidth 17) }
  else none

/-- CFG_WRITE (43_sequencer.md R213). -/
def execCfgWrite (reg : Byte) (v : BitVec 32) (s : State) : Outcome State Fault Refusal :=
  .next (s.operate fun _ b =>
    if inFlight b = true then raiseError .host .illegalState b
    else match configWrite reg v b with
      | none => raiseError .host .invalidArgument b
      | some t => returnData .host [] t)

end Sys2Proof.Machine
end

