-- ==== Sys2Proof/Machine/Dispatch.lean ====
section
/-! DEFINITION. One arm for each constructor of `Instr`, each one call of the instruction's meaning. -/

namespace Sys2Proof.Machine

def exec (i : Instr) (s : State) : Host.Outcome State Fault Refusal :=
  match i with
  | .encSimple opcode args => Sys2Proof.Machine.execEncSimple opcode args s
  | .encFramed cmd dt payload => Sys2Proof.Machine.execEncFramed cmd dt payload s
  | .encCmd kind arg => Sys2Proof.Machine.execEncCmd kind arg s
  | .chkValidate r => Sys2Proof.Machine.execChkValidate r s
  | .classify len r => Sys2Proof.Machine.execClassify len r s
  | .capStart ch => Sys2Proof.Machine.execCapStart ch s
  | .sendAck st => Sys2Proof.Machine.execSendAck st s
  | .pktIn len r => Sys2Proof.Machine.execPktIn len r s
  | .rdTimeout => Sys2Proof.Machine.execRdTimeout s
  | .xportErr => Sys2Proof.Machine.execXportErr s
  | .abort => Sys2Proof.Machine.execAbort s
  | .cfgWrite reg v => Sys2Proof.Machine.execCfgWrite reg v s
  | .statusRead reg => Sys2Proof.Machine.execStatusRead reg s
  | .frameRead row col => Sys2Proof.Machine.execFrameRead row col s
  | .illegalOp port op rest => Sys2Proof.Machine.execIllegalOp port op rest s
  | .rptFramed cmd dt payload => Sys2Proof.Machine.execRptFramed cmd dt payload s
  | .rptSimple opcode args => Sys2Proof.Machine.execRptSimple opcode args s
  | .inGet01 p st => Sys2Proof.Machine.execInGet01 p st s
  | .inGet01End p => Sys2Proof.Machine.execInGet01End p s
  | .inGet01Sto p => Sys2Proof.Machine.execInGet01Sto p s
  | .inGet02 p st => Sys2Proof.Machine.execInGet02 p st s
  | .inGet02End p => Sys2Proof.Machine.execInGet02End p s
  | .inGet02Sto p => Sys2Proof.Machine.execInGet02Sto p s
  | .inGet12 p st => Sys2Proof.Machine.execInGet12 p st s
  | .inGet12End p => Sys2Proof.Machine.execInGet12End p s
  | .inGet12Sto p => Sys2Proof.Machine.execInGet12Sto p s
  | .inGet22 p st => Sys2Proof.Machine.execInGet22 p st s
  | .inGet22End p => Sys2Proof.Machine.execInGet22End p s
  | .inGet22Sto p => Sys2Proof.Machine.execInGet22Sto p s
  | .inGet32 p st => Sys2Proof.Machine.execInGet32 p st s
  | .inGet32End p => Sys2Proof.Machine.execInGet32End p s
  | .inGet32Sto p => Sys2Proof.Machine.execInGet32Sto p s
  | .inGet03 p st => Sys2Proof.Machine.execInGet03 p st s
  | .inGet03End p => Sys2Proof.Machine.execInGet03End p s
  | .inGet03Sto p => Sys2Proof.Machine.execInGet03Sto p s
  | .inRow01Retain p echo st => Sys2Proof.Machine.execInRow01Retain p echo st s
  | .inRow02Retain p echo st => Sys2Proof.Machine.execInRow02Retain p echo st s
  | .inRow12Retain p echo st => Sys2Proof.Machine.execInRow12Retain p echo st s
  | .inRow22Retain p echo st => Sys2Proof.Machine.execInRow22Retain p echo st s
  | .inRow32Retain p echo st => Sys2Proof.Machine.execInRow32Retain p echo st s
  | .inStatus07End p echo => Sys2Proof.Machine.execInStatus07End p echo s
  | .inStatus07 p echo st => Sys2Proof.Machine.execInStatus07 p echo st s
  | .inStatus08End p echo => Sys2Proof.Machine.execInStatus08End p echo s
  | .inStatus08 p echo st => Sys2Proof.Machine.execInStatus08 p echo st s
  | .inStatus0BEnd p echo => Sys2Proof.Machine.execInStatus0BEnd p echo s
  | .inStatus0B p echo st => Sys2Proof.Machine.execInStatus0B p echo st s
  | .inOther p echo dt st => Sys2Proof.Machine.execInOther p echo dt st s
  | .inTruncated len r => Sys2Proof.Machine.execInTruncated len r s

end Sys2Proof.Machine
end

