-- ==== Sys2Proof/Machine/Step.lean ====
section
/-! DEFINITION. One step: the next event that reaches the block is taken, whole (spec 00_scope.md R5, 20_memory.md R69,
R73); the machine as a function of its elaboration parameters (00_scope.md R8); and where the host's table words are
placed. -/

namespace Sys2Proof.Machine

/-- One step. With no event pending nothing happens (60_exceptions.md R259; log 3). RESET is a step of its own
(70_reset_and_hazards.md R270). Bytes that are no instruction are answered as the spec says (`reject`). -/
def step (s : State) : Host.Outcome State Fault Refusal :=
  match s.inputs with
  | [] => .next s
  | inp :: rest =>
    match fetch s.params s.toBlock inp with
    | none => .next ({ s with inputs := rest }.operate fun _ b => resetState b)
    | some (.instr i) => exec i { s with inputs := rest }
    | some (.rejected e) => .next ({ s with inputs := rest }.operate fun _ b => reject e b)

/-- The block's state in a state of the host's. -/
def blockOutcome : Host.Outcome State Fault Refusal → Host.Outcome Block Fault Refusal
  | .next s => .next s.toBlock
  | .fault r => .fault r
  | .refused r => .refused r

/-- The machine, with the elaboration parameters as its argument and no part of its state (00_scope.md R8). The host's
`core`, whose step takes one argument, carries the parameters beside the block's state (log 1). -/
def machine (p : Params) : Host.Core :=
  { State := Block, Fault := Fault, Refusal := Refusal,
    step := fun b => blockOutcome (step { toBlock := b, params := p }), reset := Block.reset 0 }

/-- The argument of the machine that a table word is a row's word of: GET_ECHO at the table's 0x02 for an inbound word,
the report's own variant for an outbound one (log 11). -/
def tableParams (p : Params) (nbits w : Nat) : Params :=
  match tableWire nbits w with
  | .transaction _ _ => p
  | .inbound _ _ => { p with getEcho := Config.getEchoDefault }
  | .outbound _ => { p with protocol := tableProtocol nbits w }

/-- A table word placed where the next step fetches, in the machine built with `tableParams`: in front of the pending
events, with TX holding the report for an outbound one. At `State.reset` an inbound word leaves the argument as it is: its
GET_ECHO is the table's (log 11). -/
def State.withFetchWord (s : State) (nbits w : Nat) : State :=
  let t := { s with params := tableParams s.params nbits w }
  match tableWire nbits w with
  | .transaction port bytes => { t with inputs := .transaction port bytes :: s.inputs }
  | .inbound len r => { t with inputs := .inbound len r :: s.inputs }
  | .outbound r => { t with tx := r, txValid := true, inputs := .txRead :: s.inputs }

end Sys2Proof.Machine
end

