-- ==== Sys2Proof/Safety.lean ====
section
/-! DEFINITION. What every state of a run satisfies (spec 10_state.md R42 and the ranges of R22..R36), and what it means
that the block does not stop (spec 30_encoding.md R99). -/

namespace Sys2Proof.Machine

/-- A channel number 1..4 (10_state.md R27). -/
abbrev LegalChannel (c : Option (BitVec 3)) : Prop := ∀ x ∈ c, 1 ≤ x.toNat ∧ x.toNat ≤ 4

/-- An integration time 1..66000 (10_state.md R33). -/
abbrev LegalIntTime (t : Option (BitVec 17)) : Prop := ∀ x ∈ t, 1 ≤ x.toNat ∧ x.toNat ≤ Config.integrationTimeMax

/-- The invariant of the machine. The first six fields are the six items of 10_state.md R42. -/
structure Inv (s : State) : Prop where
  /-- R42 item 1, R26. -/
  dimLegal : s.dim = 0 ∨ s.dim = 12 ∨ s.dim = 24
  /-- R42 item 2. -/
  streamingBelowCap : s.phase = .streaming → s.attempts.toNat < s.cap.toNat
  /-- R42 item 3. -/
  failedIffErr : s.phase = .failed ↔ s.err ≠ .none
  /-- R42 item 4, first half. -/
  completeIffDone : s.phase = .complete ↔ s.doneReason ≠ .none
  /-- R42 item 4, second half. -/
  completeIffMeta : s.phase = .complete ↔ s.frameMeta ≠ none
  /-- R42 item 5. -/
  requestingIffTxValid : s.phase = .requesting ↔ s.txValid = true
  /-- R42 item 6. -/
  noDimYet : s.phase = .idle ∨ s.phase = .requesting → s.dim = 0
  /-- 10_state.md R28: the values ERR holds. -/
  errLegal : s.err = .none ∨ s.err = .sensorTimeout ∨ s.err = .timedOut ∨ s.err = .transportError
  /-- 10_state.md R30. -/
  capLegal : 1 ≤ s.cap.toNat
  /-- 10_state.md R31. -/
  rtoLegal : s.rtoMs ≠ 0
  /-- 10_state.md R27. -/
  channelLegal : LegalChannel s.activeCh
  /-- 10_state.md R33. -/
  intTimeLegal : LegalIntTime s.intTimeMs
  /-- 10_state.md R34: the metadata are a GAIN_MODE, an INT_TIME_MS and an ACTIVE_CH. -/
  metaLegal : ∀ m ∈ s.frameMeta, LegalIntTime m.itime ∧ LegalChannel m.ch
  /-- 43_sequencer.md R196: CONT is 1 throughout a capture. -/
  contInFlight : inFlight s.toBlock = true → s.cont = true
  /-- 43_sequencer.md R190, R201: no packet is counted before STREAMING. -/
  noAttemptsYet : s.phase = .idle ∨ s.phase = .requesting → s.attempts = 0
  /-- The frame buffer keeps its canonical form (log 6). -/
  fbCanonical : s.fb.wf = true
  /-- 10_state.md R35: since the last reset CAP_START has filled every cell, unless the block is IDLE. -/
  fbFilled : s.phase ≠ .idle → s.fb.base = .filled s.params.fill
  /-- 10_state.md R36: TX is 64 bytes. -/
  txWidth : s.tx.length = Config.reportBytes

/-- The step answers a next state: neither a fault nor a refusal. -/
abbrev StepsOn (s : State) : Prop := ∃ t, step s = .next t

/-! ## The terms the statements use -/

/-- The number of bytes after the op code that 30_encoding.md R81 gives an assigned op code's transaction. -/
def operandLength (op : Byte) (ops : List Byte) : Nat :=
  if op = 0x01 then 2 + (byteAt ops 1).toNat
  else if op = 0x02 then 3 + (byteAt ops 2).toNat
  else if op = 0x03 then 4
  else if op = 0x04 then 64
  else if op = 0x05 ∨ op = 0x12 then 65
  else if op = 0x10 ∨ op = 0x11 ∨ op = 0x21 then 1
  else if op = 0x20 then 5
  else if op = 0x22 then 2
  else 0

/-- A number as four bytes, most significant first (20_memory.md R65). -/
def fourBytes (n : Nat) : List Byte :=
  [BitVec.ofNat 8 (n / 16777216), BitVec.ofNat 8 (n / 65536), BitVec.ofNat 8 (n / 256), BitVec.ofNat 8 n]

/-- The number of an option-typed element's word (10_state.md R21). -/
def optionNumber {w : Nat} : Option (BitVec w) → Nat
  | some v => 2147483648 + v.toNat
  | none => 0

/-- From s to t a packet of a row-carrying data_type was assembled: `mode` is its dimension, `base` its first column,
`row` its row byte (43_sequencer.md R203, R205..R208). DIM is latched; the 12 cells take the samples and every other cell
keeps its value, unless the packet is of the other mode or its row is out of range: then no cell changes. -/
def RowAssembled (s t : State) (mode : BitVec 5) (base : Nat) (row : Byte) (sample : Nat → Sample) : Prop :=
  t.dim = (if s.dim = 0 then mode else s.dim) ∧
  (t.dim = mode → row.toNat < t.dim.toNat →
    (∀ k < 12, t.fb.read (row.toNat * 24 + base + k) = sample k) ∧
    ∀ a, (∀ k < 12, a ≠ row.toNat * 24 + base + k) → t.fb.read a = s.fb.read a) ∧
  (t.dim ≠ mode ∨ t.dim.toNat ≤ row.toNat → t.fb = s.fb)

/-- The instruction is the delivery of an inbound report: PKT_IN, or a class of the table (43_sequencer.md R196). -/
def DeliversReport (i : Instr) : Prop :=
  (∃ len r, i = .pktIn len r) ∨ ∃ getEcho len r, encode getEcho i = .inbound len r

end Sys2Proof.Machine
end

