-- ==== Sys2Proof/Certificates/Slice0/Obligations.lean ====
section
/-! DEFINITION. The statements about the model, from the numbered rules of spec/. Equations `exec i s = .next { s with … }`
say what the instruction does, that it completes, and that everything not written there is unchanged. -/

open Sys2Proof Sys2Proof.Machine

/-! ## Steps, decoding, reset -/

/-- One event that decodes to an instruction runs it, whole, and is taken from the pending events (00_scope.md R5,
20_memory.md R69). The model's: the list of pending events (log 3), the inbound event (log 9), the read of TX as an event
(log 8). -/
def Obligations.StepRunsDecodedInstruction : Prop :=
  ∀ (s : State) (rest : List Input) (i : Instr),
    (∀ port bytes, s.inputs = .transaction port bytes :: rest →
      decode s.params.getEcho s.params.protocol (.transaction port bytes) = .instr i →
      step s = exec i { s with inputs := rest }) ∧
    (∀ len r, s.inputs = .inbound len r :: rest →
      decode s.params.getEcho s.params.protocol (.inbound len r) = .instr i →
      step s = exec i { s with inputs := rest }) ∧
    (s.inputs = .txRead :: rest → s.txValid = true →
      decode s.params.getEcho s.params.protocol (.outbound s.tx) = .instr i →
      step s = exec i { s with inputs := rest })

/-- A transaction that is empty, on the wrong port, or of the wrong length is answered with its error and changes nothing
(30_encoding.md R82, R95). The model's: the list of pending events (log 3), and the state byte after a wrong-length error
(log 13). -/
def Obligations.RejectedTransactionChangesNothing : Prop :=
  ∀ (s : State) (rest : List Input) (port : Port),
    (s.inputs = .transaction port [] :: rest →
      step s = .next { s with inputs := rest, output := some (.record port [8]) }) ∧
    ∀ (op : Byte) (ops : List Byte), s.inputs = .transaction port (op :: ops) :: rest → op ∈ assignedOps →
      (¬ (port = .transport ↔ op ∈ [0x11#8, 0x12, 0x13, 0x14]) →
        step s = .next { s with inputs := rest, output := some (.record port [10]) }) ∧
      ((port = .transport ↔ op ∈ [0x11#8, 0x12, 0x13, 0x14]) → ops.length ≠ operandLength op ops →
        step s = .next { s with
          inputs := rest
          output := some (.record port
            (if op ∈ [0x11#8, 0x12, 0x13, 0x14, 0x15] then [8, phaseCode s.phase] else [8])) })

/-- Decoding what the encoder writes gives the instruction back, for every instruction and every operand (30_encoding.md
R81, R86, R88, R91). The model's: the wires of the inbound and outbound rows (logs 9, 10, 19). -/
def Obligations.DecodeOfEncode : Prop :=
  ∀ (getEcho : Byte) (proto : Protocol) (i : Instr), i.wf getEcho proto = true →
    decode getEcho proto (encode getEcho i) = .instr i

/-- What decodes to an instruction is that instruction's encoding, and the instruction is well-formed: no bytes have two
readings and no bit is dropped (30_encoding.md R81, R86, R88, R91). The model's: an inbound report with L > 64 decodes to
the PKT_IN that carries it (log 9). -/
def Obligations.EncodeOfDecode : Prop :=
  ∀ (getEcho : Byte) (proto : Protocol) (w : Wire) (i : Instr), decode getEcho proto w = .instr i →
    i.wf getEcho proto = true ∧ ((∀ len r, w = .inbound len r → len.toNat ≤ 64) → encode getEcho i = w)

/-- Transactions written out in the spec's test vectors decode to what they stand for, or are rejected as the spec says
(95_test_vectors.md F1, S1, K2, SQ4, RG5, P1, OP4, OP5). -/
def Obligations.SpecWordsDecode : Prop :=
  decode 0x02 .framed (.transaction .host [0x02, 0x01, 0x02, 0x01, 0x05]) = .instr (.encFramed 0x01 0x02 [0x05]) ∧
  decode 0x02 .framed (.transaction .host [0x01, 0x05, 0x02, 0x01, 0x02]) = .instr (.encSimple 0x05 [0x01, 0x02]) ∧
  decode 0x02 .framed (.transaction .host [0x03, 0x01, 0x01, 0x01, 0xD0]) = .instr (.encCmd 0x01 66000) ∧
  decode 0x02 .framed (.transaction .transport [0x11, 0x00]) = .instr (.sendAck 0) ∧
  decode 0x02 .framed (.transaction .host [0x20, 0x03, 0x00, 0x01, 0x01, 0xD0]) = .instr (.cfgWrite 0x03 66000) ∧
  decode 0x02 .framed (.transaction .host [0x22, 0x01, 0x0B]) = .instr (.frameRead 0x01 0x0B) ∧
  decode 0x02 .framed (.transaction .transport [0x15]) = .rejected (.wrongPort .transport 0x15) ∧
  decode 0x02 .framed (.transaction .host [0x10]) = .rejected (.wrongLength .host 0x10)

/-- The reset values (70_reset_and_hazards.md R271). FB and TX are unspecified there: nothing is said of them. -/
def Obligations.ResetValues : Prop :=
  State.reset.phase = .idle ∧ State.reset.cont = false ∧ State.reset.attempts = 0 ∧ State.reset.dim = 0 ∧
  State.reset.activeCh = none ∧ State.reset.err = .none ∧ State.reset.doneReason = .none ∧ State.reset.cap = 20 ∧
  State.reset.rtoMs = 5000 ∧ State.reset.gainMode = none ∧ State.reset.intTimeMs = none ∧
  State.reset.frameMeta = none ∧ State.reset.txValid = false

/-- RESET, in any state: every element to its reset value, the elaboration parameters as they were (70_reset_and_hazards.md
R270). The model's: RESET as an event, which keeps the events not yet taken (logs 3, 17). -/
def Obligations.ResetEventSetsEveryElement : Prop :=
  ∀ (s : State) (rest : List Input), s.inputs = .reset :: rest →
    ∃ t, step s = .next t ∧ t.phase = .idle ∧ t.cont = false ∧ t.attempts = 0 ∧ t.dim = 0 ∧ t.activeCh = none ∧
      t.err = .none ∧ t.doneReason = .none ∧ t.cap = 20 ∧ t.rtoMs = 5000 ∧ t.gainMode = none ∧ t.intTimeMs = none ∧
      t.frameMeta = none ∧ t.txValid = false ∧ t.params = s.params ∧ t.inputs = rest

/-- No step changes an elaboration parameter, and the parameters are an argument of the machine, no part of its state: what
the host's `core` does from a block state beside parameters is what the machine of those parameters does from that block
state, for every number of steps and whether it goes on or stops (00_scope.md R8). The model's: the parameters carried
beside the block's state, and their values at reset (log 1). -/
def Obligations.ParametersNeverChange : Prop :=
  (∀ s t : State, step s = .next t → t.params = s.params) ∧
  (∀ (p : Params) (n : Nat) (b : Block),
    Host.Core.run Sys2Proof.core n { toBlock := b, params := p } =
      match Host.Core.run (machine p) n b with
      | .next c => .next { toBlock := c, params := p }
      | .fault e => .fault e
      | .refused e => .refused e) ∧
  ∀ p : Params, Sys2Proof.core.reset = { toBlock := (machine p).reset, params := Config.params }

/-- The state after reset satisfies the invariant (10_state.md R42, 70_reset_and_hazards.md R271). The model's: the
canonical form of the frame buffer (log 6). -/
def Obligations.ResetSatisfiesInvariant : Prop := Inv State.reset

/-- Every step keeps the invariant: the six items of 10_state.md R42, the ranges of R27, R28, R30, R31, R33 and R34, and
CONT = 1 throughout a capture (43_sequencer.md R196). The model's: the canonical form of the frame buffer (log 6). -/
def Obligations.StepKeepsInvariant : Prop := ∀ s t : State, Inv s → step s = .next t → Inv t

/-- In a state of the invariant the block never stops, whatever reaches it: no fault, no refusal (30_encoding.md R99,
00_scope.md R13). The model's: the fault that this excludes (log 16). -/
def Obligations.StepNeverStops : Prop := ∀ s : State, Inv s → StepsOn s

/-- The numbers of the states, the error codes and the completion reasons (10_state.md R22, R29; 60_exceptions.md R240). -/
def Obligations.CodesAreTheSpecs : Prop :=
  [Phase.idle, .requesting, .streaming, .complete, .failed].map phaseCode = [0, 1, 2, 3, 4] ∧
  [ErrCode.none, .payloadTooLarge, .truncatedResponse, .sensorTimeout, .timedOut, .transportError,
    .maxAttemptsExceeded, .illegalState, .invalidArgument, .protocolMismatch, .illegalOp].map errCode =
    [0, 1, 2, 3, 4, 5, 6, 7, 8, 9, 10] ∧
  [DoneReason.none, .terminal, .cap].map doneCode = [0, 1, 2]

/-! ## The framer -/

/-- The checksum (40_framer.md R110) and its properties (R111). -/
def Obligations.ChecksumRule : Prop :=
  (∀ s : List Byte, (chk s).toNat =
    if (s.map BitVec.toNat).sum % 256 = 0x17 then 0x18 else (s.map BitVec.toNat).sum % 256) ∧
  (∀ s : List Byte, chk s ≠ 0x17) ∧
  (∀ s : List Byte, chk s = 0x18 ↔ (s.map BitVec.toNat).sum % 256 = 0x17 ∨ (s.map BitVec.toNat).sum % 256 = 0x18) ∧
  chk [] = 0

/-- ENC_SIMPLE (40_framer.md R116): its transaction, its errors, and its layout (30_encoding.md R88). -/
def Obligations.EncSimpleBuildsReport : Prop :=
  ∀ (opcode : Byte) (args : List Byte) (s : State),
    (∀ (getEcho : Byte) (proto : Protocol), args.length < 256 →
      decode getEcho proto (.transaction .host (0x01 :: opcode :: BitVec.ofNat 8 args.length :: args)) =
        .instr (.encSimple opcode args)) ∧
    (s.params.protocol ≠ .simple →
      exec (.encSimple opcode args) s = .next { s with output := some (.record .host [9]) }) ∧
    (s.params.protocol = .simple → 63 < args.length →
      exec (.encSimple opcode args) s = .next { s with output := some (.record .host [1]) }) ∧
    (s.params.protocol = .simple → args.length ≤ 63 →
      ∃ r : Report, exec (.encSimple opcode args) s = .next { s with output := some (.record .host (0 :: r)) } ∧
        r.length = 64 ∧ r[0]? = some opcode ∧ (∀ j < args.length, r[1 + j]? = args[j]?) ∧
        ∀ i, args.length + 1 ≤ i → i < 64 → r[i]? = some 0)

/-- ENC_FRAMED (40_framer.md R113, R114, R115): its transaction, its errors, and its layout (30_encoding.md R86). -/
def Obligations.EncFramedBuildsReport : Prop :=
  ∀ (cmd dt : Byte) (payload : List Byte) (s : State),
    (∀ (getEcho : Byte) (proto : Protocol), payload.length < 256 →
      decode getEcho proto (.transaction .host (0x02 :: cmd :: dt :: BitVec.ofNat 8 payload.length :: payload)) =
        .instr (.encFramed cmd dt payload)) ∧
    (s.params.protocol ≠ .framed →
      exec (.encFramed cmd dt payload) s = .next { s with output := some (.record .host [9]) }) ∧
    (s.params.protocol = .framed → 57 < payload.length →
      exec (.encFramed cmd dt payload) s = .next { s with output := some (.record .host [1]) }) ∧
    (s.params.protocol = .framed → payload.length ≤ 57 →
      ∃ r : Report, exec (.encFramed cmd dt payload) s = .next { s with output := some (.record .host (0 :: r)) } ∧
        r.length = 64 ∧ r[0]? = some 0xAA ∧ r[1]? = some cmd ∧ (byteAt r 2).toNat = payload.length + 1 ∧
        r[3]? = some dt ∧ (∀ j < payload.length, r[4 + j]? = payload[j]?) ∧
        r[4 + payload.length]? = some (chk (slice r 1 (payload.length + 3))) ∧
        r[5 + payload.length]? = some 0x17 ∧ r[6 + payload.length]? = some 0x17 ∧
        ∀ i, 7 + payload.length ≤ i → i < 64 → r[i]? = some 0)

/-- ENC_CMD (40_framer.md R117) and the argument ranges (R118): its transaction; a legal command goes to the framer
operation of the instance's variant with the bytes of its semantic map; anything else is INVALID_ARGUMENT; no state is
written. -/
def Obligations.EncCmdEncodesCommand : Prop :=
  (∀ (kind a b c getEcho : Byte) (proto : Protocol), ∃ arg : BitVec 24,
    decode getEcho proto (.transaction .host [0x03, kind, a, b, c]) = .instr (.encCmd kind arg) ∧
    arg.toNat = a.toNat * 65536 + b.toNat * 256 + c.toNat) ∧
  ∀ (kind : Byte) (arg : BitVec 24) (s : State),
    (∃ o, exec (.encCmd kind arg) s = .next { s with output := o }) ∧
    (∀ c : Command,
      ((kind = 0 ∧ 1 ≤ arg.toNat ∧ arg.toNat ≤ 4 ∧ c = .selectChannel (BitVec.ofNat 3 arg.toNat)) ∨
        (kind = 1 ∧ 1 ≤ arg.toNat ∧ arg.toNat ≤ 66000 ∧ c = .setIntegrationTime (BitVec.ofNat 17 arg.toNat)) ∨
        (kind = 2 ∧ arg.toNat ≤ 1 ∧ c = .setGainMode (BitVec.ofNat 1 arg.toNat)) ∨
        (kind = 3 ∧ 1 ≤ arg.toNat ∧ arg.toNat ≤ 4 ∧ c = .capture (BitVec.ofNat 3 arg.toNat))) →
      (s.params.protocol = .framed → exec (.encCmd kind arg) s =
        exec (.encFramed (semFramedOf s.params c).cmd (semFramedOf s.params c).dt (semFramedOf s.params c).payload) s) ∧
      (s.params.protocol = .simple → exec (.encCmd kind arg) s =
        exec (.encSimple (semSimpleOf s.params c).opcode (semSimpleOf s.params c).args) s)) ∧
    (3 < kind.toNat ∨ ((kind = 0 ∨ kind = 3) ∧ (arg.toNat = 0 ∨ 4 < arg.toNat)) ∨
        (kind = 1 ∧ (arg.toNat = 0 ∨ 66000 < arg.toNat)) ∨ (kind = 2 ∧ 1 < arg.toNat) →
      exec (.encCmd kind arg) s = .next { s with output := some (.record .host [8]) })

/-- CHK_VALIDATE (40_framer.md R121): its transaction, and the verdicts in their order; no error, no state. -/
def Obligations.ChkValidateVerdicts : Prop :=
  ∀ (r : Report) (s : State), r.length = 64 →
    (∀ (getEcho : Byte) (proto : Protocol),
      decode getEcho proto (.transaction .host (0x04 :: r)) = .instr (.chkValidate r)) ∧
    exec (.chkValidate r) s = .next { s with
      output := some (.record .host [0,
        if byteAt r 0 ≠ 0xAA then 1
        else if (byteAt r 2).toNat < 1 ∨ 58 < (byteAt r 2).toNat then 2
        else if byteAt r (3 + (byteAt r 2).toNat) ≠ chk (slice r 1 ((byteAt r 2).toNat + 2)) then 3
        else if byteAt r (4 + (byteAt r 2).toNat) ≠ 0x17 ∨ byteAt r (5 + (byteAt r 2).toNat) ≠ 0x17 then 4
        else 0]) }

/-- The round trip between ENC_FRAMED and CHK_VALIDATE, both ways (40_framer.md R122). -/
def Obligations.FramedRoundTrip : Prop :=
  (∀ (cmd dt : Byte) (payload : List Byte) (s t : State) (r : Report), s.params.protocol = .framed →
    payload.length ≤ 57 → exec (.encFramed cmd dt payload) s = .next t → t.output = some (.record .host (0 :: r)) →
    ∃ u, exec (.chkValidate r) t = .next u ∧ u.output = some (.record .host [0, 0])) ∧
  (∀ (r : Report) (s t : State), s.params.protocol = .framed → r.length = 64 →
    exec (.chkValidate r) s = .next t → t.output = some (.record .host [0, 0]) →
    (∀ i, 6 + (byteAt r 2).toNat ≤ i → i < 64 → byteAt r i = 0) →
    exec (.encFramed (byteAt r 1) (byteAt r 3) (slice r 4 ((byteAt r 2).toNat - 1))) s =
      .next { s with output := some (.record .host (0 :: r)) })

/-- RPT_FRAMED and RPT_SIMPLE: what leaves the block is the report ENC_FRAMED or ENC_SIMPLE builds, under the PROTOCOL that
has it, and never under the other (30_encoding.md R86, R88, R89; the event is the model's, log 10). -/
def Obligations.OutboundReportIsTheFramers : Prop :=
  ∀ s : State,
    (∀ (cmd dt : Byte) (payload : List Byte),
      (s.params.protocol = .framed → payload.length ≤ 57 →
        ∃ r, exec (.encFramed cmd dt payload) s = .next { s with output := some (.record .host (0 :: r)) } ∧
          exec (.rptFramed cmd dt payload) s = .next { s with output := some (.report r) }) ∧
      (s.params.protocol = .simple →
        exec (.rptFramed cmd dt payload) s = .next { s with output := some (.record .transport [9]) })) ∧
    ∀ (opcode : Byte) (args : List Byte),
      (s.params.protocol = .simple → args.length ≤ 63 →
        ∃ r, exec (.encSimple opcode args) s = .next { s with output := some (.record .host (0 :: r)) } ∧
          exec (.rptSimple opcode args) s = .next { s with output := some (.report r) }) ∧
      (s.params.protocol = .framed →
        exec (.rptSimple opcode args) s = .next { s with output := some (.record .transport [9]) })

/-- While TX_VALID = 1 the transport's read of TX gives TX's 64 bytes and changes nothing (10_state.md R36; the event is the
model's, log 8). -/
def Obligations.TxReadGivesTx : Prop :=
  ∀ (s : State) (rest : List Input), s.inputs = .txRead :: rest → s.txValid = true → s.tx.length = 64 →
    step s = .next { s with inputs := rest, output := some (.report s.tx) }

/-! ## The classifier and the mapper -/

/-- CLASSIFY (41_classifier.md R151): its errors, its result, and the one element it writes. The model's: the draw counter
(log 5). -/
def Obligations.ClassifyWritesOnlyActiveChannel : Prop :=
  ∀ (len : Byte) (r : Report) (s : State),
    (64 < len.toNat → exec (.classify len r) s = .next { s with output := some (.record .host [8]) }) ∧
    (len.toNat < 6 → exec (.classify len r) s = .next { s with output := some (.record .host [2]) }) ∧
    (6 ≤ len.toNat → len.toNat ≤ 64 →
      exec (.classify len r) s = .next { s with
        activeCh := (classifyReport s.params s.draws len r).chUpd.or s.activeCh
        draws := s.draws + 1
        output := some (.record .host (0 :: decodedRecord (classifyReport s.params s.draws len r))) })

/-- What the classifier resolves, case by case (41_classifier.md R144, R145, R146, R147, R148). -/
def Obligations.ClassifierCases : Prop :=
  ∀ (p : Params) (n : Nat) (len : Byte) (r : Report) (d : DecodedResponse) (dt st : Byte),
    d = classifyReport p n len r → dt = byteAt r 4 → st = byteAt r 5 →
    (d.echo = byteAt r 2 ∧ d.dt = dt) ∧
    (byteAt r 2 = p.getEcho → dt ∈ [0x01#8, 0x02, 0x12, 0x22, 0x32, 0x03] →
      d.contUpd = some (decide (st ≠ 0x0B ∧ st ≠ 0xF1)) ∧
      d.err = (if st = 0xF1 then some .sensorTimeout else none) ∧
      ∃ c, d.chUpd = some c ∧ c.toNat = dt.toNat / 16 + 1) ∧
    (dt ∈ [0x07#8, 0x08, 0x0B] → d.contUpd = some (decide (st ≠ 0x17)) ∧ d.err = none ∧ d.chUpd = none) ∧
    ((byteAt r 2 ≠ p.getEcho ∨ dt ∉ [0x01#8, 0x02, 0x12, 0x22, 0x32, 0x03]) → dt ∉ [0x07#8, 0x08, 0x0B] →
      d.contUpd = none ∧ d.err = none ∧ d.chUpd = none) ∧
    (dt ∈ [0x01#8, 0x02, 0x12, 0x22, 0x32] → d.row = some st) ∧
    (dt ∉ [0x01#8, 0x02, 0x12, 0x22, 0x32] → d.row = none)

/-- The samples of a row-carrying report (41_classifier.md R149, 20_memory.md R64): 12 of them, each from its two bytes in
SAMPLE_ORDER, a byte at an offset >= L being a draw. The model's: the form of a draw (log 5). -/
def Obligations.SampleExtraction : Prop :=
  ∀ (p : Params) (n : Nat) (len : Byte) (r : Report),
    (byteAt r 4 ∉ [0x01#8, 0x02, 0x12, 0x22, 0x32] → (classifyReport p n len r).samples = []) ∧
    (byteAt r 4 ∈ [0x01#8, 0x02, 0x12, 0x22, 0x32] →
      (classifyReport p n len r).samples.length = 12 ∧
      ∀ k < 12, ∀ x0 x1 : Byte,
        x0 = (if 6 + 2 * k < len.toNat then byteAt r (6 + 2 * k) else Config.drawByte n (6 + 2 * k)) →
        x1 = (if 7 + 2 * k < len.toNat then byteAt r (7 + 2 * k) else Config.drawByte n (7 + 2 * k)) →
        ∃ v, (classifyReport p n len r).samples[k]? = some v ∧
          v.toNat = match p.sampleOrder with
            | .hiFirst => x0.toNat * 256 + x1.toNat
            | .loFirst => x1.toNat * 256 + x0.toNat)

/-- The bytes of the CLASSIFY record (30_encoding.md R83's table). The model's: 33 bytes with byte 0, not after it (log 12). -/
def Obligations.ClassifyRecordLayout : Prop :=
  ∀ (len : Byte) (r : Report) (s t : State) (d : DecodedResponse) (bytes : List Byte),
    6 ≤ len.toNat → len.toNat ≤ 64 → d = classifyReport s.params s.draws len r →
    exec (.classify len r) s = .next t → t.output = some (.record .host bytes) →
    bytes.length = 33 ∧ byteAt bytes 0 = 0 ∧ byteAt bytes 1 = d.echo ∧ byteAt bytes 2 = d.dt ∧
    byteAt bytes 3 = (match d.contUpd with | none => 0 | some false => 1 | some true => 2) ∧
    (byteAt bytes 4).toNat = (match d.chUpd with | none => 0 | some c => c.toNat) ∧
    byteAt bytes 5 = (if d.err = some .sensorTimeout then 3 else 0) ∧
    byteAt bytes 6 = (if d.row.isSome then 1 else 0) ∧ byteAt bytes 7 = d.row.getD 0 ∧
    (byteAt bytes 8).toNat = d.samples.length ∧
    ∀ k < 12, (byteAt bytes (9 + 2 * k)).toNat * 256 + (byteAt bytes (10 + 2 * k)).toNat = (d.samples.getD k 0).toNat

/-- CLASSIFY and PKT_IN read nothing of a report but the offsets 2, 4, 5 and 6..29, and of those only the ones below L:
reports that agree there do the same (30_encoding.md R84, R90; 41_classifier.md R154). -/
def Obligations.UnreadBytesDoNotMatter : Prop :=
  ∀ (len : Byte) (r r' : Report) (s : State), r.length = 64 → r'.length = 64 →
    (∀ i < len.toNat, i = 2 ∨ i = 4 ∨ i = 5 ∨ (6 ≤ i ∧ i ≤ 29) → byteAt r i = byteAt r' i) →
    exec (.pktIn len r) s = exec (.pktIn len r') s ∧ exec (.classify len r) s = exec (.classify len r') s

/-- The mapper's outputs, the address in 10 bits (42_mapper.md R170, R171, R172, R173, R174). The address is R172's wherever
it fits 10 bits, so wherever the write enable is 1. The model's: its low 10 bits elsewhere (log 15). -/
def Obligations.MapperOutputs : Prop :=
  ∀ (dt row : Byte) (k : Nat) (dim : BitVec 5), k < 12 →
    (dt = 0x01 → mapPixel dt row k dim =
      ⟨some 12, row.toNat, k, BitVec.ofNat 10 (row.toNat * 24 + k), decide (dim = 12 ∧ row.toNat < 12)⟩) ∧
    (dt = 0x02 ∨ dt = 0x22 → mapPixel dt row k dim =
      ⟨some 24, row.toNat, k, BitVec.ofNat 10 (row.toNat * 24 + k), decide (dim = 24 ∧ row.toNat < 24)⟩) ∧
    (dt = 0x12 ∨ dt = 0x32 → mapPixel dt row k dim =
      ⟨some 24, row.toNat, 12 + k, BitVec.ofNat 10 (row.toNat * 24 + (12 + k)), decide (dim = 24 ∧ row.toNat < 24)⟩) ∧
    (dt ∉ [0x01#8, 0x02, 0x12, 0x22, 0x32] → mapPixel dt row k dim = ⟨none, 0, 0, 0, false⟩) ∧
    ((mapPixel dt row k dim).r * 24 + (mapPixel dt row k dim).c < 1024 →
      (mapPixel dt row k dim).a.toNat = (mapPixel dt row k dim).r * 24 + (mapPixel dt row k dim).c) ∧
    ((mapPixel dt row k dim).we = true → (mapPixel dt row k dim).r < dim.toNat ∧
      (mapPixel dt row k dim).c < dim.toNat ∧ (mapPixel dt row k dim).a.toNat ≤ 575)

/-- Channel and quadrant (42_mapper.md R175). -/
def Obligations.ChannelAndQuadrant : Prop :=
  ∀ c : BitVec 3, 1 ≤ c.toNat → c.toNat ≤ 4 → ∀ dt : Byte, dt = ((c.setWidth 8 - 1) <<< 4) ||| 0x02 →
    (quadrantOf dt).toNat = c.toNat - 1 ∧ modeOf dt = some 24 ∧
    colBase (quadrantOf dt) = (if c = 1 ∨ c = 3 then 0 else 12) ∧
    ∀ getEcho : Byte, chUpdate getEcho getEcho dt = some c

/-! ## The sequencer -/

/-- CAP_START (43_sequencer.md R190): its transaction; its report is the one ENC_CMD gives for kind 3, and so is its error. -/
def Obligations.CapStartBeginsCapture : Prop :=
  ∀ (ch : Byte) (s : State),
    (∀ (getEcho : Byte) (proto : Protocol), decode getEcho proto (.transaction .host [0x10, ch]) = .instr (.capStart ch)) ∧
    (s.phase = .requesting ∨ s.phase = .streaming →
      exec (.capStart ch) s = .next { s with output := some (.record .host [7]) }) ∧
    (s.phase ≠ .requesting → s.phase ≠ .streaming → ch.toNat < 1 ∨ 4 < ch.toNat →
      exec (.capStart ch) s = .next { s with output := some (.record .host [8]) }) ∧
    (s.phase ≠ .requesting → s.phase ≠ .streaming → 1 ≤ ch.toNat → ch.toNat ≤ 4 →
      (∀ e, encodeCommand s.params (.capture (BitVec.ofNat 3 ch.toNat)) = .error e →
        exec (.capStart ch) s = .next { s with output := some (.record .host [errCode e]) } ∧
        exec (.encCmd 3 (BitVec.ofNat 24 ch.toNat)) s = .next { s with output := some (.record .host [errCode e]) }) ∧
      ∀ rep, encodeCommand s.params (.capture (BitVec.ofNat 3 ch.toNat)) = .ok rep →
        exec (.encCmd 3 (BitVec.ofNat 24 ch.toNat)) s = .next { s with output := some (.record .host (0 :: rep)) } ∧
        ∃ fb : FrameBuffer, (∀ a < 576, fb.read a = s.params.fill) ∧
          exec (.capStart ch) s = .next { s with
            fb := fb
            dim := 0
            cont := true
            attempts := 0
            err := .none
            doneReason := .none
            frameMeta := none
            tx := rep
            txValid := true
            phase := .requesting
            output := some (.record .host (0 :: rep)) })

/-- From COMPLETE or FAILED, CAP_START does what ABORT and then CAP_START do (43_sequencer.md R202), where the start is not
refused; a refused start leaves the state, which ABORT does not. -/
def Obligations.RestartIsAbortThenStart : Prop :=
  ∀ (ch : Byte) (s : State) (rep : Report), s.phase = .complete ∨ s.phase = .failed → 1 ≤ ch.toNat → ch.toNat ≤ 4 →
    encodeCommand s.params (.capture (BitVec.ofNat 3 ch.toNat)) = .ok rep →
    ∃ u t, exec .abort s = .next u ∧ exec (.capStart ch) u = .next t ∧ exec (.capStart ch) s = .next t ∧
      t.phase = .requesting

/-- SEND_ACK (43_sequencer.md R191): its transaction, and what it does. -/
def Obligations.SendAckStartsStreaming : Prop :=
  ∀ (st : Byte) (s : State),
    (∀ (getEcho : Byte) (proto : Protocol),
      decode getEcho proto (.transaction .transport [0x11, st]) = .instr (.sendAck st)) ∧
    (s.phase ≠ .requesting →
      exec (.sendAck st) s = .next { s with output := some (.record .transport [7, phaseCode s.phase]) }) ∧
    (s.phase = .requesting → 2 ≤ st.toNat →
      exec (.sendAck st) s = .next { s with output := some (.record .transport [8, 1]) }) ∧
    (s.phase = .requesting → st = 0 →
      exec (.sendAck st) s = .next { s with
        txValid := false, phase := .streaming, output := some (.record .transport [0, 2]) }) ∧
    (s.phase = .requesting → st = 1 →
      exec (.sendAck st) s = .next { s with
        txValid := false, phase := .failed, err := .transportError, output := some (.record .transport [0, 4]) })

/-- RD_TIMEOUT (43_sequencer.md R199): its transaction, and what it does. -/
def Obligations.RdTimeoutFailsCapture : Prop :=
  (∀ (getEcho : Byte) (proto : Protocol), decode getEcho proto (.transaction .transport [0x13]) = .instr .rdTimeout) ∧
  ∀ s : State,
    (s.phase = .streaming → exec .rdTimeout s = .next { s with
      phase := .failed, err := .timedOut, txValid := false, output := some (.record .transport [0, 4]) }) ∧
    (s.phase ≠ .streaming →
      exec .rdTimeout s = .next { s with output := some (.record .transport [7, phaseCode s.phase]) })

/-- XPORT_ERR (43_sequencer.md R200): its transaction, and what it does. -/
def Obligations.XportErrFailsCapture : Prop :=
  (∀ (getEcho : Byte) (proto : Protocol), decode getEcho proto (.transaction .transport [0x14]) = .instr .xportErr) ∧
  ∀ s : State,
    (s.phase = .requesting ∨ s.phase = .streaming → exec .xportErr s = .next { s with
      phase := .failed, err := .transportError, txValid := false, output := some (.record .transport [0, 4]) }) ∧
    (s.phase ≠ .requesting → s.phase ≠ .streaming →
      exec .xportErr s = .next { s with output := some (.record .transport [7, phaseCode s.phase]) })

/-- ABORT (43_sequencer.md R201): its transaction, and what it does. -/
def Obligations.AbortReturnsToIdle : Prop :=
  (∀ (getEcho : Byte) (proto : Protocol), decode getEcho proto (.transaction .host [0x15]) = .instr .abort) ∧
  ∀ s : State, exec .abort s = .next { s with
    phase := .idle
    cont := false
    attempts := 0
    dim := 0
    err := .none
    doneReason := .none
    frameMeta := none
    txValid := false
    output := some (.record .host [0, 0]) }

/-- The delivery of a report outside STREAMING raises ILLEGAL_STATE and changes nothing; with L > 64 PKT_IN raises
INVALID_ARGUMENT (43_sequencer.md R194). The model's: the inbound rows as deliveries (log 9). -/
def Obligations.PacketOutsideStreaming : Prop :=
  ∀ s : State,
    (∀ i, DeliversReport i → s.phase ≠ .streaming →
      exec i s = .next { s with output := some (.record .transport [7, phaseCode s.phase]) }) ∧
    ∀ len r, s.phase = .streaming → 64 < len.toNat →
      exec (.pktIn len r) s = .next { s with output := some (.record .transport [8, 2]) }

/-- A truncated packet in STREAMING (43_sequencer.md R195): PKT_IN with L < 6, and the table's IN_TRUNCATED. The model's:
the inbound rows as deliveries (log 9). -/
def Obligations.TruncatedPacketIsIgnored : Prop :=
  ∀ (len : Byte) (r : Report) (s : State) (i : Instr), s.phase = .streaming → len.toNat < 6 →
    i = .pktIn len r ∨ i = .inTruncated len r →
    (s.params.countTruncated = false →
      exec i s = .next { s with output := some (.record .transport [2, 2]) }) ∧
    (s.params.countTruncated = true → s.attempts.toNat + 1 < s.cap.toNat →
      exec i s = .next { s with attempts := s.attempts + 1, output := some (.record .transport [2, 2]) }) ∧
    (s.params.countTruncated = true → s.cap.toNat ≤ s.attempts.toNat + 1 →
      exec i s = .next { s with
        attempts := s.attempts + 1
        phase := .complete
        doneReason := .cap
        frameMeta := some ⟨s.gainMode, s.intTimeMs, s.activeCh⟩
        output := some (.record .transport [2, 3]) })

/-- PKT_IN of a legal, untruncated report in STREAMING (43_sequencer.md R196, R197, R198; 60_exceptions.md R244): `d` is the
report's classification, which ClassifierCases and SampleExtraction give. The model's: the draw counter (log 5) and the
canonical form of the frame buffer (log 6). -/
def Obligations.PktInAppliesPacket : Prop :=
  ∀ (len : Byte) (r : Report) (s : State) (d : DecodedResponse) (ch : Option (BitVec 3)) (cont : Bool),
    s.phase = .streaming → 6 ≤ len.toNat → len.toNat ≤ 64 → s.fb.wf = true →
    d = classifyReport s.params s.draws len r → ch = d.chUpd.or s.activeCh → cont = d.contUpd.getD s.cont →
    (d.err = some .sensorTimeout → exec (.pktIn len r) s = .next { s with
      activeCh := ch
      cont := cont
      attempts := s.attempts + 1
      draws := s.draws + 1
      phase := .failed
      err := .sensorTimeout
      txValid := false
      output := some (.record .transport [3, 4]) }) ∧
    (d.err = none → cont = false → exec (.pktIn len r) s = .next { s with
      activeCh := ch
      cont := false
      attempts := s.attempts + 1
      draws := s.draws + 1
      phase := .complete
      doneReason := .terminal
      frameMeta := some ⟨s.gainMode, s.intTimeMs, ch⟩
      output := some (.record .transport [0, 3]) }) ∧
    (d.err = none → cont = true → ∃ t, exec (.pktIn len r) s = .next t ∧
      (s.attempts.toNat + 1 < s.cap.toNat → t = { s with
        activeCh := ch
        cont := true
        attempts := s.attempts + 1
        draws := s.draws + 1
        dim := t.dim
        fb := t.fb
        output := some (.record .transport [0, 2]) }) ∧
      (s.cap.toNat ≤ s.attempts.toNat + 1 → t = { s with
        activeCh := ch
        cont := true
        attempts := s.attempts + 1
        draws := s.draws + 1
        dim := t.dim
        fb := t.fb
        phase := .complete
        doneReason := .cap
        frameMeta := some ⟨s.gainMode, s.intTimeMs, ch⟩
        output := some (.record .transport [0, 3]) }) ∧
      (∀ mode base, (byteAt r 4, mode, base) ∈
          [(0x01#8, 12#5, 0), (0x02, 24, 0), (0x12, 24, 12), (0x22, 24, 0), (0x32, 24, 12)] →
        RowAssembled s t mode base (byteAt r 5) (fun k => d.samples.getD k 0)) ∧
      (byteAt r 4 ∉ [0x01#8, 0x02, 0x12, 0x22, 0x32] → t.dim = s.dim ∧ t.fb = s.fb))

/-- PKT_IN of a report does what the table's class of the report does: the 31 rows and the classifier's pseudocode agree
(30_encoding.md R91, R92; 41_classifier.md R143). The model's: the inbound rows as deliveries (log 9). -/
def Obligations.PktInIsItsInboundClass : Prop :=
  ∀ (len : Byte) (r : Report) (s : State) (i : Instr), r.length = 64 → len.toNat ≤ 64 →
    decode s.params.getEcho s.params.protocol (.inbound len r) = .instr i →
    exec (.pktIn len r) s = exec i s

/-- A continuing get reply that carries a row, in STREAMING: IN_GET_01, _02, _12, _22, _32 (41_classifier.md R144, R145;
43_sequencer.md R196, R203). The model's: logs 5, 6 and 9. -/
def Obligations.ContinuingGetReplyIsAssembled : Prop :=
  ∀ (f : Packet → Byte → Instr) (mode : BitVec 5) (base : Nat) (ch : BitVec 3),
    (f, mode, base, ch) ∈ [(Instr.inGet01, 12#5, 0, 1#3), (Instr.inGet02, 24, 0, 1), (Instr.inGet12, 24, 12, 2),
      (Instr.inGet22, 24, 0, 3), (Instr.inGet32, 24, 12, 4)] →
    ∀ (p : Packet) (st : Byte) (s : State), s.phase = .streaming → p.wf = true → st ≠ 0x0B → st ≠ 0xF1 →
      s.fb.wf = true →
      ∃ t, exec (f p st) s = .next t ∧
        RowAssembled s t mode base st (sampleAt s.params.sampleOrder s.draws p.len.toNat p.body) ∧
        (s.attempts.toNat + 1 < s.cap.toNat → t = { s with
          activeCh := some ch
          cont := true
          attempts := s.attempts + 1
          draws := s.draws + 1
          dim := t.dim
          fb := t.fb
          output := some (.record .transport [0, 2]) }) ∧
        (s.cap.toNat ≤ s.attempts.toNat + 1 → t = { s with
          activeCh := some ch
          cont := true
          attempts := s.attempts + 1
          draws := s.draws + 1
          dim := t.dim
          fb := t.fb
          phase := .complete
          doneReason := .cap
          frameMeta := some ⟨s.gainMode, s.intTimeMs, some ch⟩
          output := some (.record .transport [0, 3]) })

/-- A row packet whose echo is not GET_ECHO, in STREAMING while CONT = 1, and in a state with CONT = 0, which no run
reaches: IN_ROW_01_RETAIN, _02_, _12_, _22_, _32_ (41_classifier.md R147, R148; 43_sequencer.md R196). The model's: logs 5,
6 and 9. -/
def Obligations.RetainedRowIsAssembled : Prop :=
  ∀ (f : Packet → Byte → Byte → Instr) (mode : BitVec 5) (base : Nat),
    (f, mode, base) ∈ [(Instr.inRow01Retain, 12#5, 0), (Instr.inRow02Retain, 24, 0), (Instr.inRow12Retain, 24, 12),
      (Instr.inRow22Retain, 24, 0), (Instr.inRow32Retain, 24, 12)] →
    ∀ (p : Packet) (echo st : Byte) (s : State), s.phase = .streaming → p.wf = true → echo ≠ s.params.getEcho →
      s.fb.wf = true →
      (s.cont = true → ∃ t, exec (f p echo st) s = .next t ∧
        RowAssembled s t mode base st (sampleAt s.params.sampleOrder s.draws p.len.toNat p.body) ∧
        (s.attempts.toNat + 1 < s.cap.toNat → t = { s with
          attempts := s.attempts + 1
          draws := s.draws + 1
          dim := t.dim
          fb := t.fb
          output := some (.record .transport [0, 2]) }) ∧
        (s.cap.toNat ≤ s.attempts.toNat + 1 → t = { s with
          attempts := s.attempts + 1
          draws := s.draws + 1
          dim := t.dim
          fb := t.fb
          phase := .complete
          doneReason := .cap
          frameMeta := some ⟨s.gainMode, s.intTimeMs, s.activeCh⟩
          output := some (.record .transport [0, 3]) })) ∧
      (s.cont = false → exec (f p echo st) s = .next { s with
        attempts := s.attempts + 1
        draws := s.draws + 1
        phase := .complete
        doneReason := .terminal
        frameMeta := some ⟨s.gainMode, s.intTimeMs, s.activeCh⟩
        output := some (.record .transport [0, 3]) })

/-- A get reply with status byte 0x0B ends the capture and is not assembled: IN_GET_01_END, _02_, _12_, _22_, _32_, _03_
(41_classifier.md R144, R145; 43_sequencer.md R197). The model's: logs 5 and 9. -/
def Obligations.TerminalGetReplyCompletes : Prop :=
  ∀ (f : Packet → Instr) (ch : BitVec 3),
    (f, ch) ∈ [(Instr.inGet01End, 1#3), (Instr.inGet02End, 1), (Instr.inGet12End, 2), (Instr.inGet22End, 3),
      (Instr.inGet32End, 4), (Instr.inGet03End, 1)] →
    ∀ (p : Packet) (s : State), s.phase = .streaming → p.wf = true →
      exec (f p) s = .next { s with
        activeCh := some ch
        cont := false
        attempts := s.attempts + 1
        draws := s.draws + 1
        phase := .complete
        doneReason := .terminal
        frameMeta := some ⟨s.gainMode, s.intTimeMs, some ch⟩
        output := some (.record .transport [0, 3]) }

/-- A get reply with status byte 0xF1 fails the capture and is not assembled: IN_GET_01_STO, _02_, _12_, _22_, _32_, _03_
(41_classifier.md R144, R145; 43_sequencer.md R192, R196). The model's: logs 5 and 9. -/
def Obligations.SensorTimeoutFailsCapture : Prop :=
  ∀ (f : Packet → Instr) (ch : BitVec 3),
    (f, ch) ∈ [(Instr.inGet01Sto, 1#3), (Instr.inGet02Sto, 1), (Instr.inGet12Sto, 2), (Instr.inGet22Sto, 3),
      (Instr.inGet32Sto, 4), (Instr.inGet03Sto, 1)] →
    ∀ (p : Packet) (s : State), s.phase = .streaming → p.wf = true →
      exec (f p) s = .next { s with
        activeCh := some ch
        cont := false
        attempts := s.attempts + 1
        draws := s.draws + 1
        phase := .failed
        err := .sensorTimeout
        txValid := false
        output := some (.record .transport [3, 4]) }

/-- A status reply with 0x17 ends the capture: IN_STATUS_07_END, _08_END, _0B_END (41_classifier.md R146; 43_sequencer.md
R196). The model's: logs 5 and 9. -/
def Obligations.TerminalStatusCompletes : Prop :=
  ∀ f : Packet → Byte → Instr, f ∈ [Instr.inStatus07End, Instr.inStatus08End, Instr.inStatus0BEnd] →
    ∀ (p : Packet) (echo : Byte) (s : State), s.phase = .streaming → p.wf = true →
      exec (f p echo) s = .next { s with
        cont := false
        attempts := s.attempts + 1
        draws := s.draws + 1
        phase := .complete
        doneReason := .terminal
        frameMeta := some ⟨s.gainMode, s.intTimeMs, s.activeCh⟩
        output := some (.record .transport [0, 3]) }

/-- A continuing packet without a row counts an attempt and assembles nothing: IN_STATUS_07, _08, _0B, IN_GET_03, and, while
CONT = 1, IN_OTHER (41_classifier.md R144, R145, R146, R147; 43_sequencer.md R196, R204). `ch` is ACTIVE_CH after the
packet. The model's: logs 5 and 9. -/
def Obligations.ContinuingPacketWithoutRow : Prop :=
  ∀ (i : Instr) (ch : Option (BitVec 3)) (p : Packet) (echo dt st : Byte) (s : State),
    s.phase = .streaming → p.wf = true → i.wf s.params.getEcho s.params.protocol = true →
    ((i = .inStatus07 p echo st ∨ i = .inStatus08 p echo st ∨ i = .inStatus0B p echo st) ∧ ch = s.activeCh ∨
      i = .inGet03 p st ∧ ch = some 1 ∨ i = .inOther p echo dt st ∧ s.cont = true ∧ ch = s.activeCh) →
    (s.attempts.toNat + 1 < s.cap.toNat → exec i s = .next { s with
      activeCh := ch
      cont := true
      attempts := s.attempts + 1
      draws := s.draws + 1
      output := some (.record .transport [0, 2]) }) ∧
    (s.cap.toNat ≤ s.attempts.toNat + 1 → exec i s = .next { s with
      activeCh := ch
      cont := true
      attempts := s.attempts + 1
      draws := s.draws + 1
      phase := .complete
      doneReason := .cap
      frameMeta := some ⟨s.gainMode, s.intTimeMs, ch⟩
      output := some (.record .transport [0, 3]) })

/-- IN_OTHER in STREAMING with CONT = 0, which no run reaches, ends the capture (43_sequencer.md R196). The model's: logs 5
and 9. -/
def Obligations.OtherPacketWithContinuationOff : Prop :=
  ∀ (p : Packet) (echo dt st : Byte) (s : State), s.phase = .streaming → p.wf = true → s.cont = false →
    exec (.inOther p echo dt st) s = .next { s with
      attempts := s.attempts + 1
      draws := s.draws + 1
      phase := .complete
      doneReason := .terminal
      frameMeta := some ⟨s.gainMode, s.intTimeMs, s.activeCh⟩
      output := some (.record .transport [0, 3]) }

/-- Assembling a decoded row twice is assembling it once (43_sequencer.md R209). The model's: the canonical form of the
frame buffer (log 6). -/
def Obligations.ConsumeRowIsIdempotent : Prop :=
  ∀ (d : DecodedResponse) (s : Block), s.fb.wf = true → consumeRow d (consumeRow d s) = consumeRow d s

/-! ## Registers and the frame -/

/-- STATUS_READ (43_sequencer.md R211) of the register map (10_state.md R21, R37): its transaction, and its record for every
register. -/
def Obligations.StatusReadGivesWord : Prop :=
  ∀ (reg : Byte) (s : State),
    (∀ (getEcho : Byte) (proto : Protocol),
      decode getEcho proto (.transaction .host [0x21, reg]) = .instr (.statusRead reg)) ∧
    (∀ n : Nat, (reg, n) ∈ [(0x00#8, s.cap.toNat), (0x01, s.rtoMs.toNat), (0x02, optionNumber s.gainMode),
        (0x03, optionNumber s.intTimeMs), (0x10, (phaseCode s.phase).toNat), (0x11, s.cont.toNat),
        (0x12, s.attempts.toNat), (0x13, s.dim.toNat), (0x14, optionNumber s.activeCh), (0x15, (errCode s.err).toNat),
        (0x16, (doneCode s.doneReason).toNat)] →
      exec (.statusRead reg) s = .next { s with output := some (.record .host (0 :: fourBytes n)) }) ∧
    (s.phase = .complete → ∀ (m : FrameMeta) (n : Nat), s.frameMeta = some m →
      (reg, n) ∈ [(0x17#8, optionNumber m.gain), (0x18, optionNumber m.itime), (0x19, optionNumber m.ch),
        (0x1A, s.dim.toNat)] →
      exec (.statusRead reg) s = .next { s with output := some (.record .host (0 :: fourBytes n)) }) ∧
    (s.phase ≠ .complete → reg ∈ [0x17#8, 0x18, 0x19, 0x1A] →
      exec (.statusRead reg) s = .next { s with output := some (.record .host [7]) }) ∧
    (reg ∉ [0x00#8, 0x01, 0x02, 0x03, 0x10, 0x11, 0x12, 0x13, 0x14, 0x15, 0x16, 0x17, 0x18, 0x19, 0x1A] →
      exec (.statusRead reg) s = .next { s with output := some (.record .host [8]) })

/-- FRAME_READ (43_sequencer.md R212), for a DIM the block holds; and its stop where DIM is a value that 10_state.md R26
excludes and the cell does not exist: the model's choice (log 16). -/
def Obligations.FrameReadGivesCell : Prop :=
  ∀ (row col : Byte) (s : State),
    (∀ (getEcho : Byte) (proto : Protocol),
      decode getEcho proto (.transaction .host [0x22, row, col]) = .instr (.frameRead row col)) ∧
    (s.phase ≠ .complete → exec (.frameRead row col) s = .next { s with output := some (.record .host [7]) }) ∧
    (s.phase = .complete → s.dim = 0 ∨ s.dim.toNat ≤ row.toNat ∨ s.dim.toNat ≤ col.toNat →
      exec (.frameRead row col) s = .next { s with output := some (.record .host [8]) }) ∧
    (s.phase = .complete → s.dim = 12 ∨ s.dim = 24 → row.toNat < s.dim.toNat → col.toNat < s.dim.toNat →
      ∃ hi lo : Byte, hi.toNat * 256 + lo.toNat = (s.fb.read (row.toNat * 24 + col.toNat)).toNat ∧
        exec (.frameRead row col) s = .next { s with output := some (.record .host [0, hi, lo]) }) ∧
    (s.phase = .complete → row.toNat < s.dim.toNat → col.toNat < s.dim.toNat → 575 < row.toNat * 24 + col.toNat →
      exec (.frameRead row col) s = .fault (.noSuchCell (row.toNat * 24 + col.toNat)))

/-- CFG_WRITE (43_sequencer.md R213): its transaction, with the value most significant byte first (20_memory.md R65), and
what it does. -/
def Obligations.CfgWriteWritesOneRegister : Prop :=
  (∀ (reg a b c d getEcho : Byte) (proto : Protocol), ∃ v : BitVec 32,
    decode getEcho proto (.transaction .host [0x20, reg, a, b, c, d]) = .instr (.cfgWrite reg v) ∧
    v.toNat = a.toNat * 16777216 + b.toNat * 65536 + c.toNat * 256 + d.toNat) ∧
  ∀ (reg : Byte) (v : BitVec 32) (s : State),
    (s.phase = .requesting ∨ s.phase = .streaming →
      exec (.cfgWrite reg v) s = .next { s with output := some (.record .host [7]) }) ∧
    (s.phase ≠ .requesting → s.phase ≠ .streaming →
      (reg = 0x00 → 1 ≤ v.toNat → v.toNat ≤ 255 → exec (.cfgWrite reg v) s =
        .next { s with cap := BitVec.ofNat 8 v.toNat, output := some (.record .host [0]) }) ∧
      (reg = 0x01 → v ≠ 0 → exec (.cfgWrite reg v) s =
        .next { s with rtoMs := v, output := some (.record .host [0]) }) ∧
      (reg = 0x02 → v.toNat ≤ 1 → exec (.cfgWrite reg v) s =
        .next { s with gainMode := some (BitVec.ofNat 1 v.toNat), output := some (.record .host [0]) }) ∧
      (reg = 0x03 → 1 ≤ v.toNat → v.toNat ≤ 66000 → exec (.cfgWrite reg v) s =
        .next { s with intTimeMs := some (BitVec.ofNat 17 v.toNat), output := some (.record .host [0]) }) ∧
      ((reg = 0x00 ∧ (v = 0 ∨ 255 < v.toNat)) ∨ (reg = 0x01 ∧ v = 0) ∨ (reg = 0x02 ∧ 1 < v.toNat) ∨
          (reg = 0x03 ∧ (v = 0 ∨ 66000 < v.toNat)) ∨ 3 < reg.toNat →
        exec (.cfgWrite reg v) s = .next { s with output := some (.record .host [8]) }))

/-- The unassigned op codes, on either port, whatever follows (30_encoding.md R96). -/
def Obligations.UnassignedOpIsIllegal : Prop :=
  ∀ (op : Byte) (rest : List Byte) (port : Port) (getEcho : Byte) (proto : Protocol) (s : State),
    (op = 0 ∨ (0x06 ≤ op.toNat ∧ op.toNat ≤ 0x0F) ∨ (0x16 ≤ op.toNat ∧ op.toNat ≤ 0x1F) ∨ 0x23 ≤ op.toNat) →
    decode getEcho proto (.transaction port (op :: rest)) = .instr (.illegalOp port op rest) ∧
    exec (.illegalOp port op rest) s = .next { s with output := some (.record port [10]) }

/-! ## The whole machine -/

/-- The transitions of STATE: an instruction that changes STATE makes one of those listed, from a listed state, with the
listed cause (43_sequencer.md R210). The model's: the inbound rows as deliveries (log 9). -/
def Obligations.StateTransitions : Prop :=
  ∀ (i : Instr) (s t : State), exec i s = .next t → t.phase ≠ s.phase →
    ((∃ ch, i = .capStart ch) ∧ (s.phase = .idle ∨ s.phase = .complete ∨ s.phase = .failed) ∧
      t.phase = .requesting ∧ t.err = .none) ∨
    (i = .sendAck 0 ∧ s.phase = .requesting ∧ t.phase = .streaming) ∨
    ((i = .sendAck 1 ∧ s.phase = .requesting ∨ i = .xportErr ∧ (s.phase = .requesting ∨ s.phase = .streaming)) ∧
      t.phase = .failed ∧ t.err = .transportError) ∨
    (DeliversReport i ∧ s.phase = .streaming ∧ t.phase = .complete ∧ (t.doneReason = .terminal ∨ t.doneReason = .cap)) ∨
    (DeliversReport i ∧ s.phase = .streaming ∧ t.phase = .failed ∧ t.err = .sensorTimeout) ∨
    (i = .rdTimeout ∧ s.phase = .streaming ∧ t.phase = .failed ∧ t.err = .timedOut) ∨
    (i = .abort ∧ t.phase = .idle ∧ t.err = .none)

/-- An operation error changes nothing: an error record other than SENSOR_TIMEOUT, and than TRUNCATED_RESPONSE where
truncated packets count, leaves every element as it was (60_exceptions.md R242). -/
def Obligations.OperationErrorChangesNothing : Prop :=
  ∀ (i : Instr) (s t : State) (port : Port) (c : Byte) (rest : List Byte), exec i s = .next t →
    t.output = some (.record port (c :: rest)) → c ≠ 0 → c ≠ 3 → (c = 2 → s.params.countTruncated = false) →
    t = { s with output := t.output }

/-- In FAILED and in COMPLETE every transport event raises ILLEGAL_STATE and changes nothing: no second failure, and no
change of a finished frame (60_exceptions.md R248). The model's: the inbound rows as deliveries (log 9). -/
def Obligations.NoNestedFailure : Prop :=
  ∀ (i : Instr) (s : State), s.phase = .failed ∨ s.phase = .complete →
    (∃ st, i = .sendAck st) ∨ DeliversReport i ∨ i = .rdTimeout ∨ i = .xportErr →
    exec i s = .next { s with output := some (.record .transport [7, phaseCode s.phase]) }

/-- The frame is readable only in COMPLETE (20_memory.md R74): elsewhere FRAME_READ and the frame registers raise
ILLEGAL_STATE, and nothing that an operation writes or answers but FB itself depends on FB. -/
def Obligations.FrameVisibleOnlyInComplete : Prop :=
  (∀ (row col : Byte) (s : State), s.phase ≠ .complete →
    exec (.frameRead row col) s = .next { s with output := some (.record .host [7]) }) ∧
  (∀ (reg : Byte) (s : State), s.phase ≠ .complete → 0x17 ≤ reg.toNat → reg.toNat ≤ 0x1A →
    exec (.statusRead reg) s = .next { s with output := some (.record .host [7]) }) ∧
  ∀ (i : Instr) (s t u : State) (fb : FrameBuffer), s.phase ≠ .complete → exec i s = .next t →
    exec i { s with fb := fb } = .next u → u = { t with fb := u.fb }

/-- An instruction that neither classifies nor delivers a report leaves ACTIVE_CH (10_state.md R27). The model's: the
inbound rows as deliveries (log 9). -/
def Obligations.ActiveChannelWriters : Prop :=
  ∀ (i : Instr) (s t : State), exec i s = .next t → ¬ DeliversReport i → (∀ len r, i ≠ .classify len r) →
    t.activeCh = s.activeCh

/-- No instruction but CFG_WRITE writes CAP, RTO_MS, GAIN_MODE or INT_TIME_MS (10_state.md R30, R31, R32, R33). -/
def Obligations.ConfigurationWriters : Prop :=
  ∀ (i : Instr) (s t : State), exec i s = .next t → (∀ reg v, i ≠ .cfgWrite reg v) →
    t.cap = s.cap ∧ t.rtoMs = s.rtoMs ∧ t.gainMode = s.gainMode ∧ t.intTimeMs = s.intTimeMs

/-- FB is written only by CAP_START and by packets delivered in STREAMING (10_state.md R35, 20_memory.md R61); a delivered
report `r` changes no cell but the 12 that the mapper gives its data_type r[4] and its row byte r[5] (42_mapper.md R172,
43_sequencer.md R206), and none at all where it carries no row or is truncated (R195, R203). The model's: the inbound rows
as deliveries (log 9). -/
def Obligations.FrameBufferWriters : Prop :=
  ∀ (i : Instr) (s t : State), exec i s = .next t → (∀ ch, i ≠ .capStart ch) →
    (¬ DeliversReport i ∨ s.phase ≠ .streaming → t.fb = s.fb) ∧
    ∀ (getEcho len : Byte) (r : Report), i = .pktIn len r ∨ encode getEcho i = .inbound len r →
      (∀ a, (∀ k < 12, a ≠ pixelAddr (byteAt r 4) (byteAt r 5) k) → t.fb.read a = s.fb.read a) ∧
      (byteAt r 4 ∉ [0x01#8, 0x02, 0x12, 0x22, 0x32] ∨ len.toNat < 6 → t.fb = s.fb)

/-- No instruction but CAP_START writes TX or raises TX_VALID (10_state.md R36). -/
def Obligations.TransmitRegisterWriters : Prop :=
  ∀ (i : Instr) (s t : State), exec i s = .next t → (∀ ch, i ≠ .capStart ch) →
    t.tx = s.tx ∧ (t.txValid = true → s.txValid = true)

/-- CONT, ATTEMPTS, DIM, DONE_REASON, FRAME_META and ERR are written only by CAP_START, by ABORT and by the events of a
capture; DIM never leaves 12 or 24 within a capture, FRAME_META and DONE_REASON are set only on the way into COMPLETE, ERR
only on the way into FAILED (10_state.md R24, R25, R26, R28, R29, R34). The model's: the inbound rows as deliveries (log 9). -/
def Obligations.CaptureStateWriters : Prop :=
  ∀ (i : Instr) (s t : State), exec i s = .next t → (∀ ch, i ≠ .capStart ch) → i ≠ .abort →
    (¬ DeliversReport i ∨ s.phase ≠ .streaming → t.cont = s.cont ∧ t.attempts = s.attempts ∧ t.dim = s.dim) ∧
    (s.dim ≠ 0 → t.dim = s.dim) ∧
    (t.dim = s.dim ∨ t.dim = 12 ∨ t.dim = 24) ∧
    ((t.phase = .complete ∧ s.phase = .streaming) ∨ (t.frameMeta = s.frameMeta ∧ t.doneReason = s.doneReason)) ∧
    (t.err = s.err ∨ t.phase = .failed ∧ (s.phase = .requesting ∨ s.phase = .streaming))

/-- No result record carries a reserved code or MAX_ATTEMPTS_EXCEEDED, and no operation puts MAX_ATTEMPTS_EXCEEDED into ERR
(60_exceptions.md R240, R249). -/
def Obligations.MaxAttemptsIsNeverReported : Prop :=
  ∀ (i : Instr) (s t : State), exec i s = .next t →
    (∀ (port : Port) (c : Byte) (rest : List Byte), t.output = some (.record port (c :: rest)) → c.toNat ≤ 10 ∧ c ≠ 6) ∧
    (s.err ≠ .maxAttemptsExceeded → t.err ≠ .maxAttemptsExceeded)

/-- In STREAMING, once the packets that CAP still allows have been received, each of 6..64 meaningful bytes, the capture is
over (60_exceptions.md R255). The model's: the list of pending events (log 3). -/
def Obligations.CaptureEndsWithinCap : Prop :=
  ∀ (s : State) (packets : List (Byte × Report)) (rest : List Input), Inv s → s.phase = .streaming →
    (∀ q ∈ packets, 6 ≤ q.1.toNat ∧ q.1.toNat ≤ 64 ∧ q.2.length = 64) →
    s.inputs = packets.map (fun q => Input.transaction .transport (0x12 :: q.1 :: q.2)) ++ rest →
    s.cap.toNat ≤ s.attempts.toNat + packets.length →
    ∃ t, Host.Core.run Sys2Proof.core packets.length s = .next t ∧ (t.phase = .complete ∨ t.phase = .failed) ∧
      t.inputs = rest
end

