-- ==== Sys2Proof/Laws/FrameBuffer.lean ====
section
/-! SUPPORT. The frame buffer: a read after a write, and the canonical form (spec 10_state.md R35; log 6). -/

namespace Sys2Proof.Machine

theorem cellsWf_mono {b : FbBase} {cells : List (Nat × Sample)} {lo lo' : Nat} (h : lo' ≤ lo)
    (hw : cellsWf b lo cells = true) : cellsWf b lo' cells = true := by
  cases cells with
  | nil => rfl
  | cons c rest => simp [cellsWf] at hw ⊢; exact ⟨⟨⟨by omega, hw.1.1.2⟩, hw.1.2⟩, hw.2⟩

/-- Below its first listed address a well-formed list reads as its base. -/
theorem cellsRead_below {b : FbBase} {cells : List (Nat × Sample)} {lo a : Nat} (hw : cellsWf b lo cells = true)
    (h : a < lo) : cellsRead b cells a = baseRead b a := by
  induction cells generalizing lo with
  | nil => rfl
  | cons c rest ih =>
    simp [cellsWf] at hw
    have hne : c.1 ≠ a := by omega
    simp [cellsRead, hne]
    exact ih hw.2 (by omega)

/-- What a write does to what is read, in a well-formed list. -/
theorem cellsRead_write {b : FbBase} {cells : List (Nat × Sample)} {lo : Nat} (hw : cellsWf b lo cells = true)
    (a x : Nat) (v : Sample) :
    cellsRead b (cellsWrite b cells a v) x = if x = a then v else cellsRead b cells x := by
  induction cells generalizing lo with
  | nil =>
    by_cases hx : x = a
    · subst hx
      by_cases hv : v = baseRead b x <;> simp [cellsWrite, cellsRead, hv]
    · by_cases hv : v = baseRead b a <;> simp [cellsWrite, cellsRead, hv, hx, Ne.symm hx]
  | cons c rest ih =>
    obtain ⟨y, w⟩ := c
    simp [cellsWf] at hw
    obtain ⟨⟨⟨hlo, hy⟩, hne⟩, hrest⟩ := hw
    have below : ∀ z, z ≤ y → cellsRead b rest z = baseRead b z := fun z hz => cellsRead_below hrest (by omega)
    rcases lt_trichotomy a y with h | h | h
    · by_cases hx : x = a
      · subst hx
        by_cases hv : v = baseRead b x <;> simp [cellsWrite, cellsRead, h, hv, below x (by omega), h.ne']
      · by_cases hv : v = baseRead b a <;> simp [cellsWrite, cellsRead, h, hv, hx, Ne.symm hx]
    · subst h
      by_cases hx : x = a
      · subst hx
        by_cases hv : v = baseRead b x <;> simp [cellsWrite, cellsRead, hv, below x (le_refl _)]
      · by_cases hv : v = baseRead b a <;> simp [cellsWrite, cellsRead, hv, hx, Ne.symm hx]
    · have h' : ¬ a < y := by omega
      by_cases hyx : y = x
      · subst hyx; simp [cellsWrite, cellsRead, h', h.ne', h.ne]
      · simp [cellsWrite, cellsRead, h', h.ne', hyx, ih hrest]

/-- A write below 576 keeps the canonical form. -/
theorem cellsWf_write {b : FbBase} {cells : List (Nat × Sample)} {lo a : Nat} (hw : cellsWf b lo cells = true)
    (hlo : lo ≤ a) (ha : a < Config.fbCells) (v : Sample) : cellsWf b lo (cellsWrite b cells a v) = true := by
  induction cells generalizing lo with
  | nil => by_cases hv : v = baseRead b a <;> simp [cellsWrite, cellsWf, hv, hlo, ha]
  | cons c rest ih =>
    obtain ⟨y, w⟩ := c
    have hw' := hw
    simp [cellsWf] at hw
    obtain ⟨⟨⟨hly, hy⟩, hne⟩, hrest⟩ := hw
    unfold cellsWrite
    split_ifs with h1 h2 h3 h4
    · exact hw'
    · simp [cellsWf, hlo, ha, h2, hy, hne, hrest]; omega
    · subst h3; exact cellsWf_mono (by omega) hrest
    · subst h3; simp [cellsWf, hlo, ha, h4, hrest]
    · simp [cellsWf, hly, hy, hne]; exact ih hrest (by omega)

@[simp] theorem FrameBuffer.write_base (fb : FrameBuffer) (a : Nat) (v : Sample) : (fb.write a v).base = fb.base := rfl

/-- A read after a write. -/
theorem FrameBuffer.read_write {fb : FrameBuffer} (hw : fb.wf = true) (a x : Nat) (v : Sample) :
    (fb.write a v).read x = if x = a then v else fb.read x := cellsRead_write hw a x v

/-- A write keeps the canonical form. -/
theorem FrameBuffer.wf_write {fb : FrameBuffer} (hw : fb.wf = true) {a : Nat} (ha : a < Config.fbCells) (v : Sample) :
    (fb.write a v).wf = true := cellsWf_write hw (Nat.zero_le a) ha v

@[simp] theorem FrameBuffer.filledWith_wf (v : Sample) : (FrameBuffer.filledWith v).wf = true := rfl

@[simp] theorem FrameBuffer.filledWith_read (v : Sample) (a : Nat) : (FrameBuffer.filledWith v).read a = v := rfl

@[simp] theorem FrameBuffer.filledWith_base (v : Sample) : (FrameBuffer.filledWith v).base = .filled v := rfl

/-- Writes at the addresses f 0, …, f (n-1), all below 576, of the values g 0, …, g (n-1): the form is kept, the base
stays, and a cell reads as before unless it is one of them. -/
theorem FrameBuffer.foldl_write (f : Nat → Nat) (g : Nat → Sample) (n : Nat) {fb : FrameBuffer} (hw : fb.wf = true)
    (hf : ∀ k < n, f k < Config.fbCells) :
    ((List.range n).foldl (fun t k => t.write (f k) (g k)) fb).wf = true ∧
    ((List.range n).foldl (fun t k => t.write (f k) (g k)) fb).base = fb.base ∧
    (∀ a, (∀ k < n, a ≠ f k) → ((List.range n).foldl (fun t k => t.write (f k) (g k)) fb).read a = fb.read a) ∧
    ((∀ j < n, ∀ k < n, f j = f k → j = k) →
      ∀ k < n, ((List.range n).foldl (fun t k => t.write (f k) (g k)) fb).read (f k) = g k) := by
  induction n with
  | zero => simp [hw]
  | succ n ih =>
    obtain ⟨h1, h2, h3, h4⟩ := ih (fun k hk => hf k (by omega))
    simp only [List.range_succ, List.foldl_append, List.foldl_cons, List.foldl_nil]
    refine ⟨wf_write h1 (hf n (by omega)) _, by simp [h2], fun a ha => ?_, fun hinj k hk => ?_⟩
    · rw [read_write h1, if_neg (ha n (by omega))]
      exact h3 a (fun k hk => ha k (by omega))
    · rw [read_write h1]
      by_cases hkn : k = n
      · subst hkn; simp
      · have : f k ≠ f n := fun he => hkn (hinj k hk n (by omega) he)
        rw [if_neg this]
        exact h4 (fun i hi j hj => hinj i (by omega) j (by omega)) k (by omega)

/-- The addresses of a row write exist, and differ from sample to sample (42_mapper.md R174). -/
theorem pixelAddr_row {dt row : Byte} {m : BitVec 5} (hm : modeOf dt = some m) (hr : row.toNat < m.toNat) (k : Nat)
    (hk : k < Config.samplesPerPacket) :
    pixelAddr dt row k = row.toNat * 24 + pixelCol m dt k ∧ pixelAddr dt row k < Config.fbCells ∧
      pixelCol m dt k < m.toNat := by
  have hcol : pixelCol m dt k < m.toNat := by
    unfold modeOf at hm
    simp only [Config.samplesPerPacket] at hk
    unfold pixelCol
    split_ifs at hm with h1 h2
    · cases hm; simpa using hk
    · cases hm
      have : colBase (quadrantOf dt) ≤ 12 := by rcases h2 with h | h | h | h <;> subst h <;> decide
      simp; omega
  have hm24 : m.toNat ≤ 24 := by
    unfold modeOf at hm
    split_ifs at hm <;> cases hm <;> decide
  have haddr : pixelAddr dt row k = row.toNat * 24 + pixelCol m dt k := by
    simp [pixelAddr, mapPixel, hm, Config.fbStride]
    omega
  refine ⟨haddr, ?_, hcol⟩
  rw [haddr]
  simp only [Config.fbCells]
  omega

theorem pixelCol_add (m : BitVec 5) (dt : Byte) (k : Nat) : pixelCol m dt k = pixelCol m dt 0 + k := by
  unfold pixelCol; split <;> simp

/-- A write leaves every other cell, in any frame buffer. -/
theorem cellsRead_cellsWrite_ne (b : FbBase) (cells : List (Nat × Sample)) {a c : Nat} (v : Sample) (h : c ≠ a) :
    cellsRead b (cellsWrite b cells a v) c = cellsRead b cells c := by
  induction cells with
  | nil => unfold cellsWrite; split <;> simp [cellsRead, h.symm]
  | cons x rest ih =>
    unfold cellsWrite
    split_ifs with h1 h2 h3 h4
    · rfl
    · simp [cellsRead, h.symm]
    · simp [cellsRead, ← h3, h.symm]
    · simp [cellsRead, ← h3, h.symm]
    · simp [cellsRead, ih]

/-- A row write leaves every cell but the 12 that the mapper names, in any frame buffer (43_sequencer.md R206). -/
theorem FrameBuffer.writeRow_read_ne (fb : FrameBuffer) (dt row : Byte) (samples : List Sample) {a : Nat}
    (h : ∀ k < 12, a ≠ pixelAddr dt row k) : (fb.writeRow dt row samples).read a = fb.read a := by
  have hf : ∀ (ks : List Nat) (fb : FrameBuffer), (∀ k ∈ ks, a ≠ pixelAddr dt row k) →
      (ks.foldl (fun f k => f.write (pixelAddr dt row k) (samples.getD k 0)) fb).read a = fb.read a := by
    intro ks
    induction ks with
    | nil => intros; rfl
    | cons k ks ih =>
      intro fb hk
      rw [List.foldl_cons, ih _ (fun j hj => hk j (List.mem_cons_of_mem _ hj))]
      exact cellsRead_cellsWrite_ne _ _ _ (hk k (List.mem_cons_self ..))
  exact hf _ fb (fun k hk => h k (by simpa [Config.samplesPerPacket] using hk))

/-- What a row write can do (43_sequencer.md R206). -/
theorem FrameBuffer.writeRow_spec {fb : FrameBuffer} (hw : fb.wf = true) {dt row : Byte} {m : BitVec 5}
    (hm : modeOf dt = some m) (hr : row.toNat < m.toNat) (samples : List Sample) :
    (fb.writeRow dt row samples).wf = true ∧ (fb.writeRow dt row samples).base = fb.base ∧
    (∀ a, (∀ k < 12, a ≠ pixelAddr dt row k) → (fb.writeRow dt row samples).read a = fb.read a) ∧
    (∀ k < 12, (fb.writeRow dt row samples).read (pixelAddr dt row k) = samples.getD k 0) := by
  have h := foldl_write (pixelAddr dt row) (fun k => samples.getD k 0) 12 hw
    (fun k hk => (pixelAddr_row hm hr k hk).2.1)
  refine ⟨h.1, h.2.1, h.2.2.1, h.2.2.2 (fun j hj k hk he => ?_)⟩
  rw [(pixelAddr_row hm hr j hj).1, (pixelAddr_row hm hr k hk).1, pixelCol_add m dt j, pixelCol_add m dt k] at he
  omega

/-- Two well-formed lists over one base that read the same are the same. -/
theorem cells_ext {b : FbBase} {c d : List (Nat × Sample)} {lo lo' : Nat} (hc : cellsWf b lo c = true)
    (hd : cellsWf b lo' d = true) (h : ∀ a, cellsRead b c a = cellsRead b d a) : c = d := by
  induction c generalizing lo lo' d with
  | nil =>
    cases d with
    | nil => rfl
    | cons y rest =>
      simp [cellsWf] at hd
      have := h y.1
      simp [cellsRead] at this
      exact absurd this.symm hd.1.2
  | cons x rest ih =>
    simp [cellsWf] at hc
    cases d with
    | nil =>
      have := h x.1
      simp [cellsRead] at this
      exact absurd this hc.1.2
    | cons y rest' =>
      simp [cellsWf] at hd
      have hx := h x.1
      have hy := h y.1
      simp only [cellsRead, if_true] at hx hy
      rcases lt_trichotomy x.1 y.1 with hl | hl | hl
      · rw [if_neg (by omega), cellsRead_below hd.2 (by omega)] at hx
        exact absurd hx hc.1.2
      · obtain ⟨x1, x2⟩ := x
        obtain ⟨y1, y2⟩ := y
        simp only at hl
        subst hl
        simp only [if_true] at hx
        subst hx
        rw [ih hc.2 hd.2 (fun a => ?_)]
        by_cases ha : a ≤ x1
        · rw [cellsRead_below hc.2 (by omega), cellsRead_below hd.2 (by omega)]
        · have := h a
          simpa [cellsRead, show x1 ≠ a by omega] using this
      · rw [if_neg (by omega), cellsRead_below hc.2 (by omega)] at hy
        exact absurd hy.symm hd.1.2

/-- Equal memories are equal data: two canonical frame buffers over one base that read the same are the same. -/
theorem FrameBuffer.eq_of_read {fb fb' : FrameBuffer} (hw : fb.wf = true) (hw' : fb'.wf = true) (hb : fb.base = fb'.base)
    (h : ∀ a, fb.read a = fb'.read a) : fb = fb' := by
  obtain ⟨b, c⟩ := fb
  obtain ⟨b', c'⟩ := fb'
  simp only at hb
  subst hb
  exact congrArg _ (cells_ext hw hw' h)

end Sys2Proof.Machine
end

