-- ==== Sys2Proof/Laws/State.lean ====
section
/-! SUPPORT. What each update of the state does to each field: the equations later proofs use instead of unfolding an
update. -/

namespace Sys2Proof.Machine

/-! An operation of an instance rewrites the block's state and keeps the parameters. -/

@[simp] theorem State.operate_params (s : State) (f : Params → Block → Block) : (s.operate f).params = s.params := rfl
@[simp] theorem State.operate_toBlock (s : State) (f : Params → Block → Block) :
    (s.operate f).toBlock = f s.params s.toBlock := rfl
@[simp] theorem resetWith_params (p : Params) : (resetWith p).params = p := rfl
@[simp] theorem resetWith_toBlock (p : Params) : (resetWith p).toBlock = Block.reset 0 := rfl

@[simp] theorem respond_phase (port : Port) (bytes : List Byte) (s : Block) : (respond port bytes s).phase = s.phase := rfl
@[simp] theorem respond_cont (port : Port) (bytes : List Byte) (s : Block) : (respond port bytes s).cont = s.cont := rfl
@[simp] theorem respond_attempts (port : Port) (bytes : List Byte) (s : Block) : (respond port bytes s).attempts = s.attempts := rfl
@[simp] theorem respond_dim (port : Port) (bytes : List Byte) (s : Block) : (respond port bytes s).dim = s.dim := rfl
@[simp] theorem respond_activeCh (port : Port) (bytes : List Byte) (s : Block) : (respond port bytes s).activeCh = s.activeCh := rfl
@[simp] theorem respond_err (port : Port) (bytes : List Byte) (s : Block) : (respond port bytes s).err = s.err := rfl
@[simp] theorem respond_doneReason (port : Port) (bytes : List Byte) (s : Block) : (respond port bytes s).doneReason = s.doneReason := rfl
@[simp] theorem respond_cap (port : Port) (bytes : List Byte) (s : Block) : (respond port bytes s).cap = s.cap := rfl
@[simp] theorem respond_rtoMs (port : Port) (bytes : List Byte) (s : Block) : (respond port bytes s).rtoMs = s.rtoMs := rfl
@[simp] theorem respond_gainMode (port : Port) (bytes : List Byte) (s : Block) : (respond port bytes s).gainMode = s.gainMode := rfl
@[simp] theorem respond_intTimeMs (port : Port) (bytes : List Byte) (s : Block) : (respond port bytes s).intTimeMs = s.intTimeMs := rfl
@[simp] theorem respond_frameMeta (port : Port) (bytes : List Byte) (s : Block) : (respond port bytes s).frameMeta = s.frameMeta := rfl
@[simp] theorem respond_fb (port : Port) (bytes : List Byte) (s : Block) : (respond port bytes s).fb = s.fb := rfl
@[simp] theorem respond_tx (port : Port) (bytes : List Byte) (s : Block) : (respond port bytes s).tx = s.tx := rfl
@[simp] theorem respond_txValid (port : Port) (bytes : List Byte) (s : Block) : (respond port bytes s).txValid = s.txValid := rfl
@[simp] theorem respond_inputs (port : Port) (bytes : List Byte) (s : Block) : (respond port bytes s).inputs = s.inputs := rfl
@[simp] theorem respond_output (port : Port) (bytes : List Byte) (s : Block) : (respond port bytes s).output = some (.record port bytes) := rfl
@[simp] theorem respond_draws (port : Port) (bytes : List Byte) (s : Block) : (respond port bytes s).draws = s.draws := rfl

@[simp] theorem emit_phase (r : Report) (s : Block) : (emit r s).phase = s.phase := rfl
@[simp] theorem emit_cont (r : Report) (s : Block) : (emit r s).cont = s.cont := rfl
@[simp] theorem emit_attempts (r : Report) (s : Block) : (emit r s).attempts = s.attempts := rfl
@[simp] theorem emit_dim (r : Report) (s : Block) : (emit r s).dim = s.dim := rfl
@[simp] theorem emit_activeCh (r : Report) (s : Block) : (emit r s).activeCh = s.activeCh := rfl
@[simp] theorem emit_err (r : Report) (s : Block) : (emit r s).err = s.err := rfl
@[simp] theorem emit_doneReason (r : Report) (s : Block) : (emit r s).doneReason = s.doneReason := rfl
@[simp] theorem emit_cap (r : Report) (s : Block) : (emit r s).cap = s.cap := rfl
@[simp] theorem emit_rtoMs (r : Report) (s : Block) : (emit r s).rtoMs = s.rtoMs := rfl
@[simp] theorem emit_gainMode (r : Report) (s : Block) : (emit r s).gainMode = s.gainMode := rfl
@[simp] theorem emit_intTimeMs (r : Report) (s : Block) : (emit r s).intTimeMs = s.intTimeMs := rfl
@[simp] theorem emit_frameMeta (r : Report) (s : Block) : (emit r s).frameMeta = s.frameMeta := rfl
@[simp] theorem emit_fb (r : Report) (s : Block) : (emit r s).fb = s.fb := rfl
@[simp] theorem emit_tx (r : Report) (s : Block) : (emit r s).tx = s.tx := rfl
@[simp] theorem emit_txValid (r : Report) (s : Block) : (emit r s).txValid = s.txValid := rfl
@[simp] theorem emit_inputs (r : Report) (s : Block) : (emit r s).inputs = s.inputs := rfl
@[simp] theorem emit_output (r : Report) (s : Block) : (emit r s).output = some (.report r) := rfl
@[simp] theorem emit_draws (r : Report) (s : Block) : (emit r s).draws = s.draws := rfl

@[simp] theorem failCapture_phase (cause : ErrCode) (s : Block) : (failCapture cause s).phase = .failed := rfl
@[simp] theorem failCapture_cont (cause : ErrCode) (s : Block) : (failCapture cause s).cont = s.cont := rfl
@[simp] theorem failCapture_attempts (cause : ErrCode) (s : Block) : (failCapture cause s).attempts = s.attempts := rfl
@[simp] theorem failCapture_dim (cause : ErrCode) (s : Block) : (failCapture cause s).dim = s.dim := rfl
@[simp] theorem failCapture_activeCh (cause : ErrCode) (s : Block) : (failCapture cause s).activeCh = s.activeCh := rfl
@[simp] theorem failCapture_err (cause : ErrCode) (s : Block) : (failCapture cause s).err = cause := rfl
@[simp] theorem failCapture_doneReason (cause : ErrCode) (s : Block) : (failCapture cause s).doneReason = s.doneReason := rfl
@[simp] theorem failCapture_cap (cause : ErrCode) (s : Block) : (failCapture cause s).cap = s.cap := rfl
@[simp] theorem failCapture_rtoMs (cause : ErrCode) (s : Block) : (failCapture cause s).rtoMs = s.rtoMs := rfl
@[simp] theorem failCapture_gainMode (cause : ErrCode) (s : Block) : (failCapture cause s).gainMode = s.gainMode := rfl
@[simp] theorem failCapture_intTimeMs (cause : ErrCode) (s : Block) : (failCapture cause s).intTimeMs = s.intTimeMs := rfl
@[simp] theorem failCapture_frameMeta (cause : ErrCode) (s : Block) : (failCapture cause s).frameMeta = s.frameMeta := rfl
@[simp] theorem failCapture_fb (cause : ErrCode) (s : Block) : (failCapture cause s).fb = s.fb := rfl
@[simp] theorem failCapture_tx (cause : ErrCode) (s : Block) : (failCapture cause s).tx = s.tx := rfl
@[simp] theorem failCapture_txValid (cause : ErrCode) (s : Block) : (failCapture cause s).txValid = false := rfl
@[simp] theorem failCapture_inputs (cause : ErrCode) (s : Block) : (failCapture cause s).inputs = s.inputs := rfl
@[simp] theorem failCapture_output (cause : ErrCode) (s : Block) : (failCapture cause s).output = s.output := rfl
@[simp] theorem failCapture_draws (cause : ErrCode) (s : Block) : (failCapture cause s).draws = s.draws := rfl

@[simp] theorem returnToIdle_phase (s : Block) : (returnToIdle s).phase = .idle := rfl
@[simp] theorem returnToIdle_cont (s : Block) : (returnToIdle s).cont = false := rfl
@[simp] theorem returnToIdle_attempts (s : Block) : (returnToIdle s).attempts = 0 := rfl
@[simp] theorem returnToIdle_dim (s : Block) : (returnToIdle s).dim = 0 := rfl
@[simp] theorem returnToIdle_activeCh (s : Block) : (returnToIdle s).activeCh = s.activeCh := rfl
@[simp] theorem returnToIdle_err (s : Block) : (returnToIdle s).err = .none := rfl
@[simp] theorem returnToIdle_doneReason (s : Block) : (returnToIdle s).doneReason = .none := rfl
@[simp] theorem returnToIdle_cap (s : Block) : (returnToIdle s).cap = s.cap := rfl
@[simp] theorem returnToIdle_rtoMs (s : Block) : (returnToIdle s).rtoMs = s.rtoMs := rfl
@[simp] theorem returnToIdle_gainMode (s : Block) : (returnToIdle s).gainMode = s.gainMode := rfl
@[simp] theorem returnToIdle_intTimeMs (s : Block) : (returnToIdle s).intTimeMs = s.intTimeMs := rfl
@[simp] theorem returnToIdle_frameMeta (s : Block) : (returnToIdle s).frameMeta = none := rfl
@[simp] theorem returnToIdle_fb (s : Block) : (returnToIdle s).fb = s.fb := rfl
@[simp] theorem returnToIdle_tx (s : Block) : (returnToIdle s).tx = s.tx := rfl
@[simp] theorem returnToIdle_txValid (s : Block) : (returnToIdle s).txValid = false := rfl
@[simp] theorem returnToIdle_inputs (s : Block) : (returnToIdle s).inputs = s.inputs := rfl
@[simp] theorem returnToIdle_output (s : Block) : (returnToIdle s).output = s.output := rfl
@[simp] theorem returnToIdle_draws (s : Block) : (returnToIdle s).draws = s.draws := rfl

@[simp] theorem completeCapture_phase (reason : DoneReason) (s : Block) : (completeCapture reason s).phase = .complete := rfl
@[simp] theorem completeCapture_cont (reason : DoneReason) (s : Block) : (completeCapture reason s).cont = s.cont := rfl
@[simp] theorem completeCapture_attempts (reason : DoneReason) (s : Block) : (completeCapture reason s).attempts = s.attempts := rfl
@[simp] theorem completeCapture_dim (reason : DoneReason) (s : Block) : (completeCapture reason s).dim = s.dim := rfl
@[simp] theorem completeCapture_activeCh (reason : DoneReason) (s : Block) : (completeCapture reason s).activeCh = s.activeCh := rfl
@[simp] theorem completeCapture_err (reason : DoneReason) (s : Block) : (completeCapture reason s).err = s.err := rfl
@[simp] theorem completeCapture_doneReason (reason : DoneReason) (s : Block) : (completeCapture reason s).doneReason = reason := rfl
@[simp] theorem completeCapture_cap (reason : DoneReason) (s : Block) : (completeCapture reason s).cap = s.cap := rfl
@[simp] theorem completeCapture_rtoMs (reason : DoneReason) (s : Block) : (completeCapture reason s).rtoMs = s.rtoMs := rfl
@[simp] theorem completeCapture_gainMode (reason : DoneReason) (s : Block) : (completeCapture reason s).gainMode = s.gainMode := rfl
@[simp] theorem completeCapture_intTimeMs (reason : DoneReason) (s : Block) : (completeCapture reason s).intTimeMs = s.intTimeMs := rfl
@[simp] theorem completeCapture_frameMeta (reason : DoneReason) (s : Block) : (completeCapture reason s).frameMeta = some ⟨s.gainMode, s.intTimeMs, s.activeCh⟩ := rfl
@[simp] theorem completeCapture_fb (reason : DoneReason) (s : Block) : (completeCapture reason s).fb = s.fb := rfl
@[simp] theorem completeCapture_tx (reason : DoneReason) (s : Block) : (completeCapture reason s).tx = s.tx := rfl
@[simp] theorem completeCapture_txValid (reason : DoneReason) (s : Block) : (completeCapture reason s).txValid = s.txValid := rfl
@[simp] theorem completeCapture_inputs (reason : DoneReason) (s : Block) : (completeCapture reason s).inputs = s.inputs := rfl
@[simp] theorem completeCapture_output (reason : DoneReason) (s : Block) : (completeCapture reason s).output = s.output := rfl
@[simp] theorem completeCapture_draws (reason : DoneReason) (s : Block) : (completeCapture reason s).draws = s.draws := rfl

@[simp] theorem startCapture_phase (p : Params) (rep : Report) (s : Block) : (startCapture p rep s).phase = .requesting := rfl
@[simp] theorem startCapture_cont (p : Params) (rep : Report) (s : Block) : (startCapture p rep s).cont = true := rfl
@[simp] theorem startCapture_attempts (p : Params) (rep : Report) (s : Block) : (startCapture p rep s).attempts = 0 := rfl
@[simp] theorem startCapture_dim (p : Params) (rep : Report) (s : Block) : (startCapture p rep s).dim = 0 := rfl
@[simp] theorem startCapture_activeCh (p : Params) (rep : Report) (s : Block) : (startCapture p rep s).activeCh = s.activeCh := rfl
@[simp] theorem startCapture_err (p : Params) (rep : Report) (s : Block) : (startCapture p rep s).err = .none := rfl
@[simp] theorem startCapture_doneReason (p : Params) (rep : Report) (s : Block) : (startCapture p rep s).doneReason = .none := rfl
@[simp] theorem startCapture_cap (p : Params) (rep : Report) (s : Block) : (startCapture p rep s).cap = s.cap := rfl
@[simp] theorem startCapture_rtoMs (p : Params) (rep : Report) (s : Block) : (startCapture p rep s).rtoMs = s.rtoMs := rfl
@[simp] theorem startCapture_gainMode (p : Params) (rep : Report) (s : Block) : (startCapture p rep s).gainMode = s.gainMode := rfl
@[simp] theorem startCapture_intTimeMs (p : Params) (rep : Report) (s : Block) : (startCapture p rep s).intTimeMs = s.intTimeMs := rfl
@[simp] theorem startCapture_frameMeta (p : Params) (rep : Report) (s : Block) : (startCapture p rep s).frameMeta = none := rfl
@[simp] theorem startCapture_fb (p : Params) (rep : Report) (s : Block) : (startCapture p rep s).fb = FrameBuffer.filledWith p.fill := rfl
@[simp] theorem startCapture_tx (p : Params) (rep : Report) (s : Block) : (startCapture p rep s).tx = rep := rfl
@[simp] theorem startCapture_txValid (p : Params) (rep : Report) (s : Block) : (startCapture p rep s).txValid = true := rfl
@[simp] theorem startCapture_inputs (p : Params) (rep : Report) (s : Block) : (startCapture p rep s).inputs = s.inputs := rfl
@[simp] theorem startCapture_output (p : Params) (rep : Report) (s : Block) : (startCapture p rep s).output = s.output := rfl
@[simp] theorem startCapture_draws (p : Params) (rep : Report) (s : Block) : (startCapture p rep s).draws = s.draws := rfl

@[simp] theorem countAttempt_phase (s : Block) : (countAttempt s).phase = s.phase := rfl
@[simp] theorem countAttempt_cont (s : Block) : (countAttempt s).cont = s.cont := rfl
@[simp] theorem countAttempt_attempts (s : Block) : (countAttempt s).attempts = s.attempts + 1 := rfl
@[simp] theorem countAttempt_dim (s : Block) : (countAttempt s).dim = s.dim := rfl
@[simp] theorem countAttempt_activeCh (s : Block) : (countAttempt s).activeCh = s.activeCh := rfl
@[simp] theorem countAttempt_err (s : Block) : (countAttempt s).err = s.err := rfl
@[simp] theorem countAttempt_doneReason (s : Block) : (countAttempt s).doneReason = s.doneReason := rfl
@[simp] theorem countAttempt_cap (s : Block) : (countAttempt s).cap = s.cap := rfl
@[simp] theorem countAttempt_rtoMs (s : Block) : (countAttempt s).rtoMs = s.rtoMs := rfl
@[simp] theorem countAttempt_gainMode (s : Block) : (countAttempt s).gainMode = s.gainMode := rfl
@[simp] theorem countAttempt_intTimeMs (s : Block) : (countAttempt s).intTimeMs = s.intTimeMs := rfl
@[simp] theorem countAttempt_frameMeta (s : Block) : (countAttempt s).frameMeta = s.frameMeta := rfl
@[simp] theorem countAttempt_fb (s : Block) : (countAttempt s).fb = s.fb := rfl
@[simp] theorem countAttempt_tx (s : Block) : (countAttempt s).tx = s.tx := rfl
@[simp] theorem countAttempt_txValid (s : Block) : (countAttempt s).txValid = s.txValid := rfl
@[simp] theorem countAttempt_inputs (s : Block) : (countAttempt s).inputs = s.inputs := rfl
@[simp] theorem countAttempt_output (s : Block) : (countAttempt s).output = s.output := rfl
@[simp] theorem countAttempt_draws (s : Block) : (countAttempt s).draws = s.draws := rfl

@[simp] theorem updateChannel_phase (u : Option (BitVec 3)) (s : Block) : (updateChannel u s).phase = s.phase := rfl
@[simp] theorem updateChannel_cont (u : Option (BitVec 3)) (s : Block) : (updateChannel u s).cont = s.cont := rfl
@[simp] theorem updateChannel_attempts (u : Option (BitVec 3)) (s : Block) : (updateChannel u s).attempts = s.attempts := rfl
@[simp] theorem updateChannel_dim (u : Option (BitVec 3)) (s : Block) : (updateChannel u s).dim = s.dim := rfl
@[simp] theorem updateChannel_activeCh (u : Option (BitVec 3)) (s : Block) : (updateChannel u s).activeCh = u.or s.activeCh := rfl
@[simp] theorem updateChannel_err (u : Option (BitVec 3)) (s : Block) : (updateChannel u s).err = s.err := rfl
@[simp] theorem updateChannel_doneReason (u : Option (BitVec 3)) (s : Block) : (updateChannel u s).doneReason = s.doneReason := rfl
@[simp] theorem updateChannel_cap (u : Option (BitVec 3)) (s : Block) : (updateChannel u s).cap = s.cap := rfl
@[simp] theorem updateChannel_rtoMs (u : Option (BitVec 3)) (s : Block) : (updateChannel u s).rtoMs = s.rtoMs := rfl
@[simp] theorem updateChannel_gainMode (u : Option (BitVec 3)) (s : Block) : (updateChannel u s).gainMode = s.gainMode := rfl
@[simp] theorem updateChannel_intTimeMs (u : Option (BitVec 3)) (s : Block) : (updateChannel u s).intTimeMs = s.intTimeMs := rfl
@[simp] theorem updateChannel_frameMeta (u : Option (BitVec 3)) (s : Block) : (updateChannel u s).frameMeta = s.frameMeta := rfl
@[simp] theorem updateChannel_fb (u : Option (BitVec 3)) (s : Block) : (updateChannel u s).fb = s.fb := rfl
@[simp] theorem updateChannel_tx (u : Option (BitVec 3)) (s : Block) : (updateChannel u s).tx = s.tx := rfl
@[simp] theorem updateChannel_txValid (u : Option (BitVec 3)) (s : Block) : (updateChannel u s).txValid = s.txValid := rfl
@[simp] theorem updateChannel_inputs (u : Option (BitVec 3)) (s : Block) : (updateChannel u s).inputs = s.inputs := rfl
@[simp] theorem updateChannel_output (u : Option (BitVec 3)) (s : Block) : (updateChannel u s).output = s.output := rfl
@[simp] theorem updateChannel_draws (u : Option (BitVec 3)) (s : Block) : (updateChannel u s).draws = s.draws := rfl

@[simp] theorem countPacket_phase (d : DecodedResponse) (s : Block) : (countPacket d s).phase = s.phase := rfl
@[simp] theorem countPacket_cont (d : DecodedResponse) (s : Block) : (countPacket d s).cont = d.contUpd.getD s.cont := rfl
@[simp] theorem countPacket_attempts (d : DecodedResponse) (s : Block) : (countPacket d s).attempts = s.attempts + 1 := rfl
@[simp] theorem countPacket_dim (d : DecodedResponse) (s : Block) : (countPacket d s).dim = s.dim := rfl
@[simp] theorem countPacket_activeCh (d : DecodedResponse) (s : Block) : (countPacket d s).activeCh = d.chUpd.or s.activeCh := rfl
@[simp] theorem countPacket_err (d : DecodedResponse) (s : Block) : (countPacket d s).err = s.err := rfl
@[simp] theorem countPacket_doneReason (d : DecodedResponse) (s : Block) : (countPacket d s).doneReason = s.doneReason := rfl
@[simp] theorem countPacket_cap (d : DecodedResponse) (s : Block) : (countPacket d s).cap = s.cap := rfl
@[simp] theorem countPacket_rtoMs (d : DecodedResponse) (s : Block) : (countPacket d s).rtoMs = s.rtoMs := rfl
@[simp] theorem countPacket_gainMode (d : DecodedResponse) (s : Block) : (countPacket d s).gainMode = s.gainMode := rfl
@[simp] theorem countPacket_intTimeMs (d : DecodedResponse) (s : Block) : (countPacket d s).intTimeMs = s.intTimeMs := rfl
@[simp] theorem countPacket_frameMeta (d : DecodedResponse) (s : Block) : (countPacket d s).frameMeta = s.frameMeta := rfl
@[simp] theorem countPacket_fb (d : DecodedResponse) (s : Block) : (countPacket d s).fb = s.fb := rfl
@[simp] theorem countPacket_tx (d : DecodedResponse) (s : Block) : (countPacket d s).tx = s.tx := rfl
@[simp] theorem countPacket_txValid (d : DecodedResponse) (s : Block) : (countPacket d s).txValid = s.txValid := rfl
@[simp] theorem countPacket_inputs (d : DecodedResponse) (s : Block) : (countPacket d s).inputs = s.inputs := rfl
@[simp] theorem countPacket_output (d : DecodedResponse) (s : Block) : (countPacket d s).output = s.output := rfl
@[simp] theorem countPacket_draws (d : DecodedResponse) (s : Block) : (countPacket d s).draws = s.draws + 1 := rfl

@[simp] theorem latchDim_phase (m : BitVec 5) (s : Block) : (latchDim m s).phase = s.phase := by unfold latchDim; split <;> rfl
@[simp] theorem latchDim_cont (m : BitVec 5) (s : Block) : (latchDim m s).cont = s.cont := by unfold latchDim; split <;> rfl
@[simp] theorem latchDim_attempts (m : BitVec 5) (s : Block) : (latchDim m s).attempts = s.attempts := by unfold latchDim; split <;> rfl
@[simp] theorem latchDim_dim (m : BitVec 5) (s : Block) : (latchDim m s).dim = if s.dim = 0 then m else s.dim := by unfold latchDim; split <;> rfl
@[simp] theorem latchDim_activeCh (m : BitVec 5) (s : Block) : (latchDim m s).activeCh = s.activeCh := by unfold latchDim; split <;> rfl
@[simp] theorem latchDim_err (m : BitVec 5) (s : Block) : (latchDim m s).err = s.err := by unfold latchDim; split <;> rfl
@[simp] theorem latchDim_doneReason (m : BitVec 5) (s : Block) : (latchDim m s).doneReason = s.doneReason := by unfold latchDim; split <;> rfl
@[simp] theorem latchDim_cap (m : BitVec 5) (s : Block) : (latchDim m s).cap = s.cap := by unfold latchDim; split <;> rfl
@[simp] theorem latchDim_rtoMs (m : BitVec 5) (s : Block) : (latchDim m s).rtoMs = s.rtoMs := by unfold latchDim; split <;> rfl
@[simp] theorem latchDim_gainMode (m : BitVec 5) (s : Block) : (latchDim m s).gainMode = s.gainMode := by unfold latchDim; split <;> rfl
@[simp] theorem latchDim_intTimeMs (m : BitVec 5) (s : Block) : (latchDim m s).intTimeMs = s.intTimeMs := by unfold latchDim; split <;> rfl
@[simp] theorem latchDim_frameMeta (m : BitVec 5) (s : Block) : (latchDim m s).frameMeta = s.frameMeta := by unfold latchDim; split <;> rfl
@[simp] theorem latchDim_fb (m : BitVec 5) (s : Block) : (latchDim m s).fb = s.fb := by unfold latchDim; split <;> rfl
@[simp] theorem latchDim_tx (m : BitVec 5) (s : Block) : (latchDim m s).tx = s.tx := by unfold latchDim; split <;> rfl
@[simp] theorem latchDim_txValid (m : BitVec 5) (s : Block) : (latchDim m s).txValid = s.txValid := by unfold latchDim; split <;> rfl
@[simp] theorem latchDim_inputs (m : BitVec 5) (s : Block) : (latchDim m s).inputs = s.inputs := by unfold latchDim; split <;> rfl
@[simp] theorem latchDim_output (m : BitVec 5) (s : Block) : (latchDim m s).output = s.output := by unfold latchDim; split <;> rfl
@[simp] theorem latchDim_draws (m : BitVec 5) (s : Block) : (latchDim m s).draws = s.draws := by unfold latchDim; split <;> rfl

/-! The result operations are `respond` with their bytes written out. -/

@[simp] theorem returnData_eq (port : Port) (data : List Byte) (s : Block) :
    returnData port data s = respond port (0 :: data) s := rfl
@[simp] theorem raiseError_eq (port : Port) (e : ErrCode) (s : Block) :
    raiseError port e s = respond port [errCode e] s := rfl
@[simp] theorem returnState_eq (port : Port) (s : Block) :
    returnState port s = respond port [0, phaseCode s.phase] s := rfl
@[simp] theorem raiseWithState_eq (port : Port) (e : ErrCode) (s : Block) :
    raiseWithState port e s = respond port [errCode e, phaseCode s.phase] s := rfl

/-! What `consumeRow` leaves alone: all but DIM and FB. -/

theorem consumeRow_form (d : DecodedResponse) (s : Block) :
    ∃ (dim : BitVec 5) (fb : FrameBuffer), consumeRow d s = { s with dim := dim, fb := fb } := by
  unfold consumeRow latchDim
  split
  · by_cases h0 : s.dim = 0 <;> simp only [h0, if_true, if_false] <;> split
    · exact ⟨_, _, rfl⟩
    · split <;> exact ⟨_, _, rfl⟩
    · exact ⟨_, _, rfl⟩
    · split <;> exact ⟨_, _, rfl⟩
  · exact ⟨_, _, rfl⟩

@[simp] theorem consumeRow_phase (d : DecodedResponse) (s : Block) : (consumeRow d s).phase = s.phase := by
  obtain ⟨_, _, h⟩ := consumeRow_form d s; rw [h]
@[simp] theorem consumeRow_cont (d : DecodedResponse) (s : Block) : (consumeRow d s).cont = s.cont := by
  obtain ⟨_, _, h⟩ := consumeRow_form d s; rw [h]
@[simp] theorem consumeRow_attempts (d : DecodedResponse) (s : Block) : (consumeRow d s).attempts = s.attempts := by
  obtain ⟨_, _, h⟩ := consumeRow_form d s; rw [h]
@[simp] theorem consumeRow_activeCh (d : DecodedResponse) (s : Block) : (consumeRow d s).activeCh = s.activeCh := by
  obtain ⟨_, _, h⟩ := consumeRow_form d s; rw [h]
@[simp] theorem consumeRow_err (d : DecodedResponse) (s : Block) : (consumeRow d s).err = s.err := by
  obtain ⟨_, _, h⟩ := consumeRow_form d s; rw [h]
@[simp] theorem consumeRow_doneReason (d : DecodedResponse) (s : Block) : (consumeRow d s).doneReason = s.doneReason := by
  obtain ⟨_, _, h⟩ := consumeRow_form d s; rw [h]
@[simp] theorem consumeRow_cap (d : DecodedResponse) (s : Block) : (consumeRow d s).cap = s.cap := by
  obtain ⟨_, _, h⟩ := consumeRow_form d s; rw [h]
@[simp] theorem consumeRow_rtoMs (d : DecodedResponse) (s : Block) : (consumeRow d s).rtoMs = s.rtoMs := by
  obtain ⟨_, _, h⟩ := consumeRow_form d s; rw [h]
@[simp] theorem consumeRow_gainMode (d : DecodedResponse) (s : Block) : (consumeRow d s).gainMode = s.gainMode := by
  obtain ⟨_, _, h⟩ := consumeRow_form d s; rw [h]
@[simp] theorem consumeRow_intTimeMs (d : DecodedResponse) (s : Block) : (consumeRow d s).intTimeMs = s.intTimeMs := by
  obtain ⟨_, _, h⟩ := consumeRow_form d s; rw [h]
@[simp] theorem consumeRow_frameMeta (d : DecodedResponse) (s : Block) : (consumeRow d s).frameMeta = s.frameMeta := by
  obtain ⟨_, _, h⟩ := consumeRow_form d s; rw [h]
@[simp] theorem consumeRow_tx (d : DecodedResponse) (s : Block) : (consumeRow d s).tx = s.tx := by
  obtain ⟨_, _, h⟩ := consumeRow_form d s; rw [h]
@[simp] theorem consumeRow_txValid (d : DecodedResponse) (s : Block) : (consumeRow d s).txValid = s.txValid := by
  obtain ⟨_, _, h⟩ := consumeRow_form d s; rw [h]
@[simp] theorem consumeRow_inputs (d : DecodedResponse) (s : Block) : (consumeRow d s).inputs = s.inputs := by
  obtain ⟨_, _, h⟩ := consumeRow_form d s; rw [h]
@[simp] theorem consumeRow_output (d : DecodedResponse) (s : Block) : (consumeRow d s).output = s.output := by
  obtain ⟨_, _, h⟩ := consumeRow_form d s; rw [h]
@[simp] theorem consumeRow_draws (d : DecodedResponse) (s : Block) : (consumeRow d s).draws = s.draws := by
  obtain ⟨_, _, h⟩ := consumeRow_form d s; rw [h]

/-! Reset. -/

@[simp] theorem resetState_inputs (s : Block) : (resetState s).inputs = s.inputs := rfl
@[simp] theorem resetState_draws (s : Block) : (resetState s).draws = s.draws + 1 := rfl

/-! `reject` writes the output and, for a read of TX while TX_VALID = 0, the draw counter. -/

theorem reject_form (e : DecodeError) (s : Block) :
    ∃ (o : Option Output) (n : Nat), reject e s = { s with output := o, draws := n } := by
  cases e with
  | wrongLength port op => by_cases h : appendsState op = true <;> simp [reject, h] <;> exact ⟨_, _, rfl⟩
  | _ => exact ⟨_, _, rfl⟩

@[simp] theorem reject_phase (e : DecodeError) (s : Block) : (reject e s).phase = s.phase := by
  obtain ⟨_, _, h⟩ := reject_form e s; rw [h]
@[simp] theorem reject_cont (e : DecodeError) (s : Block) : (reject e s).cont = s.cont := by
  obtain ⟨_, _, h⟩ := reject_form e s; rw [h]
@[simp] theorem reject_attempts (e : DecodeError) (s : Block) : (reject e s).attempts = s.attempts := by
  obtain ⟨_, _, h⟩ := reject_form e s; rw [h]
@[simp] theorem reject_dim (e : DecodeError) (s : Block) : (reject e s).dim = s.dim := by
  obtain ⟨_, _, h⟩ := reject_form e s; rw [h]
@[simp] theorem reject_activeCh (e : DecodeError) (s : Block) : (reject e s).activeCh = s.activeCh := by
  obtain ⟨_, _, h⟩ := reject_form e s; rw [h]
@[simp] theorem reject_err (e : DecodeError) (s : Block) : (reject e s).err = s.err := by
  obtain ⟨_, _, h⟩ := reject_form e s; rw [h]
@[simp] theorem reject_doneReason (e : DecodeError) (s : Block) : (reject e s).doneReason = s.doneReason := by
  obtain ⟨_, _, h⟩ := reject_form e s; rw [h]
@[simp] theorem reject_cap (e : DecodeError) (s : Block) : (reject e s).cap = s.cap := by
  obtain ⟨_, _, h⟩ := reject_form e s; rw [h]
@[simp] theorem reject_rtoMs (e : DecodeError) (s : Block) : (reject e s).rtoMs = s.rtoMs := by
  obtain ⟨_, _, h⟩ := reject_form e s; rw [h]
@[simp] theorem reject_gainMode (e : DecodeError) (s : Block) : (reject e s).gainMode = s.gainMode := by
  obtain ⟨_, _, h⟩ := reject_form e s; rw [h]
@[simp] theorem reject_intTimeMs (e : DecodeError) (s : Block) : (reject e s).intTimeMs = s.intTimeMs := by
  obtain ⟨_, _, h⟩ := reject_form e s; rw [h]
@[simp] theorem reject_frameMeta (e : DecodeError) (s : Block) : (reject e s).frameMeta = s.frameMeta := by
  obtain ⟨_, _, h⟩ := reject_form e s; rw [h]
@[simp] theorem reject_fb (e : DecodeError) (s : Block) : (reject e s).fb = s.fb := by
  obtain ⟨_, _, h⟩ := reject_form e s; rw [h]
@[simp] theorem reject_tx (e : DecodeError) (s : Block) : (reject e s).tx = s.tx := by
  obtain ⟨_, _, h⟩ := reject_form e s; rw [h]
@[simp] theorem reject_txValid (e : DecodeError) (s : Block) : (reject e s).txValid = s.txValid := by
  obtain ⟨_, _, h⟩ := reject_form e s; rw [h]
@[simp] theorem reject_inputs (e : DecodeError) (s : Block) : (reject e s).inputs = s.inputs := by
  obtain ⟨_, _, h⟩ := reject_form e s; rw [h]

end Sys2Proof.Machine
end

