-- ==== Sys2Proof/Laws/Ops.lean ====
section
/-! SUPPORT. One lemma for each shared operation, saying once everything it can do. -/

namespace Sys2Proof.Machine

/-- What ConsumeRow can do (43_sequencer.md R203..R208): nothing for a packet without a row; else it latches DIM, and
writes the row where the mode and the row byte fit. -/
theorem consumeRow_cases (d : DecodedResponse) (s : Block) :
    ((modeOf d.dt = none ∨ d.row = none) ∧ consumeRow d s = s) ∨
    ∃ m row, modeOf d.dt = some m ∧ d.row = some row ∧
      ((m = (latchDim m s).dim ∧ row.toNat < m.toNat ∧
          consumeRow d s = { latchDim m s with fb := s.fb.writeRow d.dt row d.samples }) ∨
        ((m ≠ (latchDim m s).dim ∨ m.toNat ≤ row.toNat) ∧ consumeRow d s = latchDim m s)) := by
  unfold consumeRow
  split
  · rename_i m row hm hr
    refine .inr ⟨m, row, hm, hr, ?_⟩
    by_cases h1 : m = (latchDim m s).dim
    · by_cases h2 : (latchDim m s).dim.toNat ≤ row.toNat
      · exact .inr ⟨.inr (by rw [h1]; exact h2), by simp only [if_pos h2, ite_self]⟩
      · refine .inl ⟨h1, by rw [← h1] at h2; omega, ?_⟩
        simp only [ne_eq, ← h1, not_true_eq_false, if_false]
        rw [h1, if_neg h2]; simp
    · exact .inr ⟨.inl h1, by simp only [ne_eq, h1, not_false_eq_true, if_true]⟩
  · rename_i h
    refine .inl ⟨?_, rfl⟩
    rcases hm : modeOf d.dt with _ | m
    · exact .inl rfl
    · rcases hr : d.row with _ | row
      · exact .inr rfl
      · exact (h m row hm hr).elim

/-- What the delivery of a packet can do: PKT_IN's three checks, or the packet (43_sequencer.md R194..R196). -/
theorem deliver_cases (p : Params) (len : Byte) (d : DecodedResponse) (s : Block) :
    (s.phase ≠ .streaming ∧ deliver p len d s = respond .transport [7, phaseCode s.phase] s) ∨
    (s.phase = .streaming ∧ 64 < len.toNat ∧ deliver p len d s = respond .transport [8, 2] s) ∨
    (s.phase = .streaming ∧ len.toNat < 6 ∧ deliver p len d s = ignoreTruncated p s) ∨
    (s.phase = .streaming ∧ 6 ≤ len.toNat ∧ len.toNat ≤ 64 ∧ deliver p len d s = applyPacket d s) := by
  unfold deliver
  by_cases h1 : s.phase = .streaming
  · by_cases h2 : 64 < len.toNat
    · exact .inr (.inl ⟨h1, h2, by simp [h1, h2, errCode, phaseCode]⟩)
    · by_cases h3 : len.toNat < 6
      · exact .inr (.inr (.inl ⟨h1, h3, by simp [h1, h2, h3, Config.minResponseBytes]⟩))
      · exact .inr (.inr (.inr ⟨h1, by omega, by omega, by simp [h1, h2, h3, Config.minResponseBytes]⟩))
  · exact .inl ⟨h1, by simp [h1, errCode]⟩

/-- What a truncated packet can do in STREAMING (43_sequencer.md R195). -/
theorem ignoreTruncated_cases (p : Params) (s : Block) :
    (p.countTruncated = false ∧ ignoreTruncated p s = respond .transport [2, phaseCode s.phase] s) ∨
    (p.countTruncated = true ∧ s.attempts.toNat + 1 < s.cap.toNat ∧
      ignoreTruncated p s = respond .transport [2, phaseCode s.phase] (countAttempt s)) ∨
    (p.countTruncated = true ∧ s.cap.toNat ≤ s.attempts.toNat + 1 ∧
      ignoreTruncated p s = respond .transport [2, 3] (completeCapture .cap (countAttempt s))) := by
  unfold ignoreTruncated nextReachesCap
  by_cases h : p.countTruncated = true
  · by_cases h2 : s.cap.toNat ≤ s.attempts.toNat + 1
    · exact .inr (.inr ⟨h, h2, by simp [h, h2, errCode, phaseCode]⟩)
    · exact .inr (.inl ⟨h, by omega, by simp [h, h2, errCode]⟩)
  · exact .inl ⟨by simpa using h, by simp [h, errCode]⟩

/-- What a classified packet can do (43_sequencer.md R196, 60_exceptions.md R244). -/
theorem applyPacket_cases (d : DecodedResponse) (s : Block) :
    (d.err = some .sensorTimeout ∧
      applyPacket d s = respond .transport [3, 4] (failCapture .sensorTimeout (countPacket d s))) ∨
    (d.err ≠ some .sensorTimeout ∧ d.contUpd.getD s.cont = false ∧
      applyPacket d s = respond .transport [0, 3] (completeCapture .terminal (countPacket d s))) ∨
    (d.err ≠ some .sensorTimeout ∧ d.contUpd.getD s.cont = true ∧ s.cap.toNat ≤ s.attempts.toNat + 1 ∧
      applyPacket d s = respond .transport [0, 3] (completeCapture .cap (consumeRow d (countPacket d s)))) ∨
    (d.err ≠ some .sensorTimeout ∧ d.contUpd.getD s.cont = true ∧ s.attempts.toNat + 1 < s.cap.toNat ∧
      applyPacket d s = respond .transport [0, phaseCode s.phase] (consumeRow d (countPacket d s))) := by
  unfold applyPacket nextReachesCap
  by_cases h1 : d.err = some .sensorTimeout
  · exact .inl ⟨h1, by simp [h1, errCode, phaseCode]⟩
  · by_cases h2 : d.contUpd.getD s.cont = true
    · by_cases h3 : s.cap.toNat ≤ s.attempts.toNat + 1
      · exact .inr (.inr (.inl ⟨h1, h2, h3, by simp [h1, h2, h3, phaseCode]⟩))
      · exact .inr (.inr (.inr ⟨h1, h2, by omega, by simp [h1, h2, h3]⟩))
    · exact .inr (.inl ⟨h1, by simpa using h2, by simp [h1, h2, phaseCode]⟩)

/-- What CAP_START can do (43_sequencer.md R190). -/
theorem execCapStart_cases (ch : Byte) (s : State) :
    (inFlight s.toBlock = true ∧ execCapStart ch s = .next { s with toBlock := respond .host [7] s.toBlock }) ∨
    (inFlight s.toBlock = false ∧ (ch.toNat < 1 ∨ 4 < ch.toNat) ∧
      execCapStart ch s = .next { s with toBlock := respond .host [8] s.toBlock }) ∨
    (inFlight s.toBlock = false ∧ 1 ≤ ch.toNat ∧ ch.toNat ≤ 4 ∧ ∃ e,
      buildCommand s.params 3 (ch.setWidth 24) = .error e ∧
      execCapStart ch s = .next { s with toBlock := respond .host [errCode e] s.toBlock }) ∨
    (inFlight s.toBlock = false ∧ 1 ≤ ch.toNat ∧ ch.toNat ≤ 4 ∧ ∃ rep,
      buildCommand s.params 3 (ch.setWidth 24) = .ok rep ∧
      execCapStart ch s =
        .next { s with toBlock := respond .host (0 :: rep) (startCapture s.params rep s.toBlock) }) := by
  unfold execCapStart State.operate
  by_cases h1 : inFlight s.toBlock = true
  · exact .inl ⟨h1, by simp [h1, errCode]⟩
  · have h1' : inFlight s.toBlock = false := by simpa using h1
    by_cases h2 : ch.toNat < 1 ∨ 4 < ch.toNat
    · exact .inr (.inl ⟨h1', h2, by simp only [h1, h2, if_true, Bool.false_eq_true, if_false, raiseError_eq, errCode]⟩)
    · rcases hb : buildCommand s.params 3 (ch.setWidth 24) with e | rep
      · exact .inr (.inr (.inl ⟨h1', by omega, by omega, e, rfl, by simp only [h1, h2, hb, Bool.false_eq_true, if_false, raiseError_eq]⟩))
      · exact .inr (.inr (.inr ⟨h1', by omega, by omega, rep, rfl, by simp only [h1, h2, hb, Bool.false_eq_true, if_false, returnData_eq]⟩))

/-- What a legal CFG_WRITE writes (43_sequencer.md R213). -/
theorem configWrite_cases {reg : Byte} {v : BitVec 32} {s t : Block} (h : configWrite reg v s = some t) :
    (reg = 0x00 ∧ 1 ≤ v.toNat ∧ v.toNat ≤ 255 ∧ t = { s with cap := v.setWidth 8 }) ∨
    (reg = 0x01 ∧ v ≠ 0 ∧ t = { s with rtoMs := v }) ∨
    (reg = 0x02 ∧ v.toNat ≤ 1 ∧ t = { s with gainMode := some (v.setWidth 1) }) ∨
    (reg = 0x03 ∧ 1 ≤ v.toNat ∧ v.toNat ≤ 66000 ∧ t = { s with intTimeMs := some (v.setWidth 17) }) := by
  unfold configWrite Config.integrationTimeMax at h
  split_ifs at h with h1 h2 h3 h4 h5 h6 h7 h8
  · exact .inl ⟨h1, by omega, by omega, (Option.some.inj h).symm⟩
  · exact .inr (.inl ⟨h3, h4, (Option.some.inj h).symm⟩)
  · exact .inr (.inr (.inl ⟨h5, by omega, (Option.some.inj h).symm⟩))
  · exact .inr (.inr (.inr ⟨h7, by omega, by omega, (Option.some.inj h).symm⟩))

end Sys2Proof.Machine
end

