-- ==== Sys2Proof/Laws/PerInstr.lean ====
section
/-! SUPPORT. Statements made of every instruction, one lemma for each constructor (LAWS.json). -/

namespace Sys2Proof.Laws

/-- The bytes of an encoded instruction. -/
def wireBytes : Wire → List Byte
  | .transaction _ bytes => bytes
  | .inbound _ r => r
  | .outbound r => r

/-- How many bytes an instruction takes: the transaction length of 30_encoding.md R81, 64 for a report (20_memory.md R62). -/
def lengthOf : Instr → Nat
  | .encSimple _ args => 3 + args.length
  | .encFramed _ _ payload => 4 + payload.length
  | .encCmd _ _ => 5
  | .chkValidate _ => 65
  | .classify _ _ => 66
  | .capStart _ => 2
  | .sendAck _ => 2
  | .pktIn _ _ => 66
  | .rdTimeout => 1
  | .xportErr => 1
  | .abort => 1
  | .cfgWrite _ _ => 6
  | .statusRead _ => 2
  | .frameRead _ _ => 3
  | .illegalOp _ _ rest => 1 + rest.length
  | .rptFramed _ _ _ => 64
  | .rptSimple _ _ => 64
  | .inGet01 _ _ => 64
  | .inGet01End _ => 64
  | .inGet01Sto _ => 64
  | .inGet02 _ _ => 64
  | .inGet02End _ => 64
  | .inGet02Sto _ => 64
  | .inGet12 _ _ => 64
  | .inGet12End _ => 64
  | .inGet12Sto _ => 64
  | .inGet22 _ _ => 64
  | .inGet22End _ => 64
  | .inGet22Sto _ => 64
  | .inGet32 _ _ => 64
  | .inGet32End _ => 64
  | .inGet32Sto _ => 64
  | .inGet03 _ _ => 64
  | .inGet03End _ => 64
  | .inGet03Sto _ => 64
  | .inRow01Retain _ _ _ => 64
  | .inRow02Retain _ _ _ => 64
  | .inRow12Retain _ _ _ => 64
  | .inRow22Retain _ _ _ => 64
  | .inRow32Retain _ _ _ => 64
  | .inStatus07End _ _ => 64
  | .inStatus07 _ _ _ => 64
  | .inStatus08End _ _ => 64
  | .inStatus08 _ _ _ => 64
  | .inStatus0BEnd _ _ => 64
  | .inStatus0B _ _ _ => 64
  | .inOther _ _ _ _ => 64
  | .inTruncated _ _ => 64

/-- A well-formed instruction is encoded in as many bytes as the spec gives it. -/
def EncodedLength.Statement (i : Instr) : Prop :=
  ∀ (getEcho : Byte) (proto : Protocol), i.wf getEcho proto = true → (wireBytes (encode getEcho i)).length = lengthOf i

/-- An inbound report of a well-formed packet is 64 bytes. -/
theorem packetReport_length {p : Packet} (h : p.wf = true) (echo dt st : Byte) :
    (packetReport p echo dt st).length = 64 := by
  simp [Packet.wf] at h
  simp [packetReport, h.2]

theorem EncodedLength.encSimple (opcode : Byte) (args : List Byte) : EncodedLength.Statement (.encSimple opcode args) := by
  intro g proto _; simp [wireBytes, encode, lengthOf]; omega
theorem EncodedLength.encFramed (cmd dt : Byte) (payload : List Byte) : EncodedLength.Statement (.encFramed cmd dt payload) := by
  intro g proto _; simp [wireBytes, encode, lengthOf]; omega
theorem EncodedLength.encCmd (kind : Byte) (arg : BitVec 24) : EncodedLength.Statement (.encCmd kind arg) := by
  intro g proto _; rfl
theorem EncodedLength.chkValidate (r : Report) : EncodedLength.Statement (.chkValidate r) := by
  intro g proto h; simpa [wireBytes, encode, lengthOf, Instr.wf] using h
theorem EncodedLength.classify (len : Byte) (r : Report) : EncodedLength.Statement (.classify len r) := by
  intro g proto h; simpa [wireBytes, encode, lengthOf, Instr.wf] using h
theorem EncodedLength.capStart (ch : Byte) : EncodedLength.Statement (.capStart ch) := by
  intro g proto _; rfl
theorem EncodedLength.sendAck (st : Byte) : EncodedLength.Statement (.sendAck st) := by
  intro g proto _; rfl
theorem EncodedLength.pktIn (len : Byte) (r : Report) : EncodedLength.Statement (.pktIn len r) := by
  intro g proto h; simpa [wireBytes, encode, lengthOf, Instr.wf] using h
theorem EncodedLength.rdTimeout : EncodedLength.Statement .rdTimeout := by
  intro g proto _; rfl
theorem EncodedLength.xportErr : EncodedLength.Statement .xportErr := by
  intro g proto _; rfl
theorem EncodedLength.abort : EncodedLength.Statement .abort := by
  intro g proto _; rfl
theorem EncodedLength.cfgWrite (reg : Byte) (v : BitVec 32) : EncodedLength.Statement (.cfgWrite reg v) := by
  intro g proto _; rfl
theorem EncodedLength.statusRead (reg : Byte) : EncodedLength.Statement (.statusRead reg) := by
  intro g proto _; rfl
theorem EncodedLength.frameRead (row col : Byte) : EncodedLength.Statement (.frameRead row col) := by
  intro g proto _; rfl
theorem EncodedLength.illegalOp (port : Port) (op : Byte) (rest : List Byte) : EncodedLength.Statement (.illegalOp port op rest) := by
  intro g proto _; simp [wireBytes, encode, lengthOf]; omega
theorem EncodedLength.rptFramed (cmd dt : Byte) (payload : List Byte) : EncodedLength.Statement (.rptFramed cmd dt payload) := by
  intro g proto h
  simp [Instr.wf] at h
  simp [wireBytes, encode, lengthOf, Machine.framedReport, Machine.framedBody, Config.maxFramedPayload]
  omega
theorem EncodedLength.rptSimple (opcode : Byte) (args : List Byte) : EncodedLength.Statement (.rptSimple opcode args) := by
  intro g proto h
  simp [Instr.wf] at h
  simp [wireBytes, encode, lengthOf, Machine.simpleReport, Config.maxSimpleParams, h.2]
theorem EncodedLength.inGet01 (p : Packet) (st : Byte) : EncodedLength.Statement (.inGet01 p st) := by
  intro g proto h
  simp [Instr.wf] at h
  exact packetReport_length h.1 _ _ _
theorem EncodedLength.inGet01End (p : Packet) : EncodedLength.Statement (.inGet01End p) := by
  intro g proto h
  simp [Instr.wf] at h
  exact packetReport_length h _ _ _
theorem EncodedLength.inGet01Sto (p : Packet) : EncodedLength.Statement (.inGet01Sto p) := by
  intro g proto h
  simp [Instr.wf] at h
  exact packetReport_length h _ _ _
theorem EncodedLength.inGet02 (p : Packet) (st : Byte) : EncodedLength.Statement (.inGet02 p st) := by
  intro g proto h
  simp [Instr.wf] at h
  exact packetReport_length h.1 _ _ _
theorem EncodedLength.inGet02End (p : Packet) : EncodedLength.Statement (.inGet02End p) := by
  intro g proto h
  simp [Instr.wf] at h
  exact packetReport_length h _ _ _
theorem EncodedLength.inGet02Sto (p : Packet) : EncodedLength.Statement (.inGet02Sto p) := by
  intro g proto h
  simp [Instr.wf] at h
  exact packetReport_length h _ _ _
theorem EncodedLength.inGet12 (p : Packet) (st : Byte) : EncodedLength.Statement (.inGet12 p st) := by
  intro g proto h
  simp [Instr.wf] at h
  exact packetReport_length h.1 _ _ _
theorem EncodedLength.inGet12End (p : Packet) : EncodedLength.Statement (.inGet12End p) := by
  intro g proto h
  simp [Instr.wf] at h
  exact packetReport_length h _ _ _
theorem EncodedLength.inGet12Sto (p : Packet) : EncodedLength.Statement (.inGet12Sto p) := by
  intro g proto h
  simp [Instr.wf] at h
  exact packetReport_length h _ _ _
theorem EncodedLength.inGet22 (p : Packet) (st : Byte) : EncodedLength.Statement (.inGet22 p st) := by
  intro g proto h
  simp [Instr.wf] at h
  exact packetReport_length h.1 _ _ _
theorem EncodedLength.inGet22End (p : Packet) : EncodedLength.Statement (.inGet22End p) := by
  intro g proto h
  simp [Instr.wf] at h
  exact packetReport_length h _ _ _
theorem EncodedLength.inGet22Sto (p : Packet) : EncodedLength.Statement (.inGet22Sto p) := by
  intro g proto h
  simp [Instr.wf] at h
  exact packetReport_length h _ _ _
theorem EncodedLength.inGet32 (p : Packet) (st : Byte) : EncodedLength.Statement (.inGet32 p st) := by
  intro g proto h
  simp [Instr.wf] at h
  exact packetReport_length h.1 _ _ _
theorem EncodedLength.inGet32End (p : Packet) : EncodedLength.Statement (.inGet32End p) := by
  intro g proto h
  simp [Instr.wf] at h
  exact packetReport_length h _ _ _
theorem EncodedLength.inGet32Sto (p : Packet) : EncodedLength.Statement (.inGet32Sto p) := by
  intro g proto h
  simp [Instr.wf] at h
  exact packetReport_length h _ _ _
theorem EncodedLength.inGet03 (p : Packet) (st : Byte) : EncodedLength.Statement (.inGet03 p st) := by
  intro g proto h
  simp [Instr.wf] at h
  exact packetReport_length h.1 _ _ _
theorem EncodedLength.inGet03End (p : Packet) : EncodedLength.Statement (.inGet03End p) := by
  intro g proto h
  simp [Instr.wf] at h
  exact packetReport_length h _ _ _
theorem EncodedLength.inGet03Sto (p : Packet) : EncodedLength.Statement (.inGet03Sto p) := by
  intro g proto h
  simp [Instr.wf] at h
  exact packetReport_length h _ _ _
theorem EncodedLength.inRow01Retain (p : Packet) (echo st : Byte) : EncodedLength.Statement (.inRow01Retain p echo st) := by
  intro g proto h
  simp [Instr.wf] at h
  exact packetReport_length h.1 _ _ _
theorem EncodedLength.inRow02Retain (p : Packet) (echo st : Byte) : EncodedLength.Statement (.inRow02Retain p echo st) := by
  intro g proto h
  simp [Instr.wf] at h
  exact packetReport_length h.1 _ _ _
theorem EncodedLength.inRow12Retain (p : Packet) (echo st : Byte) : EncodedLength.Statement (.inRow12Retain p echo st) := by
  intro g proto h
  simp [Instr.wf] at h
  exact packetReport_length h.1 _ _ _
theorem EncodedLength.inRow22Retain (p : Packet) (echo st : Byte) : EncodedLength.Statement (.inRow22Retain p echo st) := by
  intro g proto h
  simp [Instr.wf] at h
  exact packetReport_length h.1 _ _ _
theorem EncodedLength.inRow32Retain (p : Packet) (echo st : Byte) : EncodedLength.Statement (.inRow32Retain p echo st) := by
  intro g proto h
  simp [Instr.wf] at h
  exact packetReport_length h.1 _ _ _
theorem EncodedLength.inStatus07End (p : Packet) (echo : Byte) : EncodedLength.Statement (.inStatus07End p echo) := by
  intro g proto h
  simp [Instr.wf] at h
  exact packetReport_length h _ _ _
theorem EncodedLength.inStatus07 (p : Packet) (echo st : Byte) : EncodedLength.Statement (.inStatus07 p echo st) := by
  intro g proto h
  simp [Instr.wf] at h
  exact packetReport_length h.1 _ _ _
theorem EncodedLength.inStatus08End (p : Packet) (echo : Byte) : EncodedLength.Statement (.inStatus08End p echo) := by
  intro g proto h
  simp [Instr.wf] at h
  exact packetReport_length h _ _ _
theorem EncodedLength.inStatus08 (p : Packet) (echo st : Byte) : EncodedLength.Statement (.inStatus08 p echo st) := by
  intro g proto h
  simp [Instr.wf] at h
  exact packetReport_length h.1 _ _ _
theorem EncodedLength.inStatus0BEnd (p : Packet) (echo : Byte) : EncodedLength.Statement (.inStatus0BEnd p echo) := by
  intro g proto h
  simp [Instr.wf] at h
  exact packetReport_length h _ _ _
theorem EncodedLength.inStatus0B (p : Packet) (echo st : Byte) : EncodedLength.Statement (.inStatus0B p echo st) := by
  intro g proto h
  simp [Instr.wf] at h
  exact packetReport_length h.1 _ _ _
theorem EncodedLength.inOther (p : Packet) (echo dt st : Byte) : EncodedLength.Statement (.inOther p echo dt st) := by
  intro g proto h
  simp [Instr.wf] at h
  exact packetReport_length h.1 _ _ _
theorem EncodedLength.inTruncated (len : Byte) (r : Report) : EncodedLength.Statement (.inTruncated len r) := by
  intro g proto h
  simp [Instr.wf] at h
  exact h.2

end Sys2Proof.Laws
end

