-- ==== Sys2Proof/Laws/Step.lean ====
section
/-! SUPPORT. What one step can do, and what the delivery of a report runs. -/

namespace Sys2Proof.Machine

/-- What one step can do: nothing without a pending event; else RESET, the decoded instruction, or the answer to bytes that
are no instruction. -/
theorem step_cases (s : State) :
    (s.inputs = [] ∧ step s = .next s) ∨
    ∃ inp rest, s.inputs = inp :: rest ∧
      ((fetch s.params s.toBlock inp = none ∧ step s = .next ({ s with inputs := rest }.operate fun _ b => resetState b)) ∨
        (∃ i, fetch s.params s.toBlock inp = some (.instr i) ∧ step s = exec i { s with inputs := rest }) ∨
        ∃ e, fetch s.params s.toBlock inp = some (.rejected e) ∧ step s = .next ({ s with inputs := rest }.operate fun _ b => reject e b)) := by
  unfold step
  split
  · rename_i h
    exact .inl ⟨h, rfl⟩
  · rename_i inp rest h
    refine .inr ⟨inp, rest, h, ?_⟩
    split
    · rename_i hf
      exact .inl ⟨hf, rfl⟩
    · rename_i i hf
      exact .inr (.inl ⟨i, hf, rfl⟩)
    · rename_i e hf
      exact .inr (.inr ⟨e, hf, rfl⟩)

/-- PKT_IN and every class of the table are `deliver` of some classification, but for IN_TRUNCATED, which is PKT_IN of a
truncated report. -/
theorem exec_deliversReport {i : Instr} (h : DeliversReport i) (s : State) :
    (∃ len d, exec i s = .next { s with toBlock := deliver s.params len d s.toBlock }) ∨ ∃ len r, i = .inTruncated len r := by
  rcases h with ⟨len, r, rfl⟩ | ⟨g, len, r, h⟩
  · exact .inl ⟨_, _, rfl⟩
  · cases i <;> simp [encode] at h <;> first | exact .inl ⟨_, _, rfl⟩ | exact .inr ⟨_, _, rfl⟩

end Sys2Proof.Machine
end

