-- ==== Sys2Proof/Tests/Slice0.lean ====
section
/-! SUPPORT. Tests of single decodings and single steps, from the spec's encodings and test vectors (95_test_vectors.md), and
for each statement a state and operands that meet its hypotheses. -/

namespace Sys2Proof.Tests

open Sys2Proof.Machine

/-! ## The instance and the states of the tests (95_test_vectors.md section 0) -/

/-- SEM_X of 95_test_vectors.md, where the vectors use it. -/
def semX : List (Command × FramedCode) :=
  [(.capture 1, ⟨0x14, 0x02, [1]⟩), (.capture 2, ⟨0x14, 0x02, [2]⟩), (.selectChannel 4, ⟨0x13, 0x00, [4]⟩),
    (.setGainMode 1, ⟨0x12, 0x00, [1]⟩), (.setIntegrationTime 66000, ⟨0x11, 0x00, [0x01, 0x01, 0xD0]⟩)]

def params : Params := ⟨.framed, .hiFirst, 0x02, semX, [(.capture 1, ⟨0x05, [1]⟩)], false, 0⟩

/-- Bytes followed by zeros, 64 in all. -/
def report (bytes : List Byte) : Report := bytes ++ List.replicate (64 - bytes.length) 0

def idle : State := { resetWith params with tx := report [] }

def requesting : State :=
  { idle with phase := .requesting, cont := true, fb := .filledWith 0, tx := report [0xAA, 0x14], txValid := true }

def streaming : State := { requesting with phase := .streaming, txValid := false }

def failed : State := { streaming with phase := .failed, err := .timedOut }

def complete : State :=
  { streaming with phase := .complete, doneReason := .terminal, frameMeta := some ⟨some 1, none, some 2⟩, dim := 12 }

def simple (s : State) : State := { s with params := { s.params with protocol := .simple } }

def counting (s : State) : State := { s with params := { s.params with countTruncated := true } }

def pending (i : Input) (s : State) : State := { s with inputs := [i] }

/-- The record or report a step puts out. -/
def outputOf : Host.Outcome State Fault Refusal → Option Output
  | .next s => s.output
  | _ => none

/-- The state of a step that goes on. -/
def after (o : Host.Outcome State Fault Refusal) (s : State) : State :=
  match o with
  | .next t => t
  | _ => s

def host (bytes : List Byte) : Option Output := some (.record .host bytes)

def transport (bytes : List Byte) : Option Output := some (.record .transport bytes)

/-- Bytes 6..63 of an inbound report that begins with the given ones. -/
def tail (bytes : List Byte) : List Byte := bytes ++ List.replicate (58 - bytes.length) 0

def packet (bytes : List Byte) : Packet := ⟨64, 0, 0, 0, tail bytes⟩

/-! ## WellFormed refuses an ill-formed term at each check -/

theorem test_wf_counts :
    (Instr.encSimple 0 (List.replicate 256 0)).wf 2 .framed = false ∧
    (Instr.encFramed 0 0 (List.replicate 256 0)).wf 2 .framed = false ∧
    (Instr.chkValidate (List.replicate 63 0)).wf 2 .framed = false ∧
    (Instr.classify 64 (List.replicate 65 0)).wf 2 .framed = false ∧
    (Instr.pktIn 64 []).wf 2 .framed = false := by
  simp only [Instr.wf, List.length_replicate]
  decide

theorem test_wf_illegalOp_refuses_assigned : (Instr.illegalOp .host 0x10 []).wf 2 .framed = false := by decide

theorem test_wf_outbound :
    (Instr.rptFramed 0 0 []).wf 2 .simple = false ∧ (Instr.rptFramed 0 0 (List.replicate 58 0)).wf 2 .framed = false ∧
    (Instr.rptSimple 0 (List.replicate 63 0)).wf 2 .framed = false ∧
    (Instr.rptSimple 0 (List.replicate 62 0)).wf 2 .simple = false := by decide

theorem test_wf_packet :
    (Packet.mk 5 0 0 0 (tail [])).wf = false ∧ (Packet.mk 65 0 0 0 (tail [])).wf = false ∧
    (Packet.mk 64 0 0 0 (List.replicate 57 0)).wf = false := by decide

theorem test_wf_needs_packet :
    ∀ i ∈ [Instr.inGet01End ⟨5, 0, 0, 0, tail []⟩, .inGet01Sto ⟨5, 0, 0, 0, tail []⟩, .inGet02End ⟨5, 0, 0, 0, tail []⟩,
      .inGet02Sto ⟨5, 0, 0, 0, tail []⟩, .inGet12End ⟨5, 0, 0, 0, tail []⟩, .inGet12Sto ⟨5, 0, 0, 0, tail []⟩,
      .inGet22End ⟨5, 0, 0, 0, tail []⟩, .inGet22Sto ⟨5, 0, 0, 0, tail []⟩, .inGet32End ⟨5, 0, 0, 0, tail []⟩,
      .inGet32Sto ⟨5, 0, 0, 0, tail []⟩, .inGet03End ⟨5, 0, 0, 0, tail []⟩, .inGet03Sto ⟨5, 0, 0, 0, tail []⟩,
      .inStatus07End ⟨5, 0, 0, 0, tail []⟩ 0, .inStatus08End ⟨5, 0, 0, 0, tail []⟩ 0,
      .inStatus0BEnd ⟨5, 0, 0, 0, tail []⟩ 0], i.wf 2 .framed = false := by decide

theorem test_wf_continuing_status :
    ∀ i ∈ [Instr.inGet01 (packet []) 0x0B, .inGet01 (packet []) 0xF1, .inGet02 (packet []) 0x0B,
      .inGet12 (packet []) 0xF1, .inGet22 (packet []) 0x0B, .inGet32 (packet []) 0xF1, .inGet03 (packet []) 0x0B,
      .inStatus07 (packet []) 0 0x17, .inStatus08 (packet []) 0 0x17, .inStatus0B (packet []) 0 0x17],
      i.wf 2 .framed = false := by decide

theorem test_wf_retain_echo :
    ∀ i ∈ [Instr.inRow01Retain (packet []) 2 0, .inRow02Retain (packet []) 2 0, .inRow12Retain (packet []) 2 0,
      .inRow22Retain (packet []) 2 0, .inRow32Retain (packet []) 2 0, .inOther (packet []) 2 0x03 0,
      .inOther (packet []) 9 0x01 0, .inOther (packet []) 9 0x0B 0], i.wf 2 .framed = false := by decide

theorem test_wf_truncated :
    (Instr.inTruncated 6 (report [])).wf 2 .framed = false ∧ (Instr.inTruncated 5 []).wf 2 .framed = false := by decide

/-! ## Every constructor's word, from the spec's encoding of it (30_encoding.md R81, R82, R86, R88, R91, R92) -/

theorem test_decode_framer :
    decode 2 .framed (.transaction .host [0x01, 0x05, 0x02, 0x01, 0x02]) = .instr (.encSimple 0x05 [0x01, 0x02]) ∧
    decode 2 .framed (.transaction .host [0x02, 0x01, 0x02, 0x01, 0x05]) = .instr (.encFramed 0x01 0x02 [0x05]) ∧
    decode 2 .framed (.transaction .host [0x03, 0x01, 0x01, 0x01, 0xD0]) = .instr (.encCmd 0x01 66000) ∧
    decode 2 .framed (.transaction .host (0x04 :: report [0xAA, 0x10])) = .instr (.chkValidate (report [0xAA, 0x10])) ∧
    decode 2 .framed (.transaction .host (0x05 :: 0x40 :: report [0, 0, 2])) =
      .instr (.classify 0x40 (report [0, 0, 2])) := by decide

theorem test_decode_sequencer :
    decode 2 .framed (.transaction .host [0x10, 0x02]) = .instr (.capStart 0x02) ∧
    decode 2 .framed (.transaction .transport [0x11, 0x01]) = .instr (.sendAck 0x01) ∧
    decode 2 .framed (.transaction .transport (0x12 :: 0x40 :: report [0, 0, 2])) = .instr (.pktIn 0x40 (report [0, 0, 2])) ∧
    decode 2 .framed (.transaction .transport [0x13]) = .instr .rdTimeout ∧
    decode 2 .framed (.transaction .transport [0x14]) = .instr .xportErr ∧
    decode 2 .framed (.transaction .host [0x15]) = .instr .abort := by decide

theorem test_decode_registers :
    decode 2 .framed (.transaction .host [0x20, 0x03, 0x00, 0x01, 0x01, 0xD0]) = .instr (.cfgWrite 0x03 66000) ∧
    decode 2 .framed (.transaction .host [0x21, 0x1A]) = .instr (.statusRead 0x1A) ∧
    decode 2 .framed (.transaction .host [0x22, 0x01, 0x0B]) = .instr (.frameRead 0x01 0x0B) ∧
    decode 2 .framed (.transaction .host [0x06, 0x01]) = .instr (.illegalOp .host 0x06 [0x01]) ∧
    decode 2 .framed (.transaction .transport [0xFF]) = .instr (.illegalOp .transport 0xFF []) := by decide

theorem test_decode_outbound :
    decode 2 .framed (.outbound (report [0xAA, 0x01, 0x02, 0x02, 0x05, 0x0A, 0x17, 0x17])) =
      .instr (.rptFramed 0x01 0x02 [0x05]) ∧
    decode 2 .simple (.outbound (report [0xAA, 0x01])) = .instr (.rptSimple 0xAA (0x01 :: List.replicate 62 0)) ∧
    decode 2 .framed (.outbound (report [0xAA, 0x01])) = .rejected (.notReport (report [0xAA, 0x01])) := by decide

/-- An inbound report with the given bytes at offsets 2, 4 and 5. -/
def inbound (echo dt st : Byte) : Wire := .inbound 64 (report [0, 0, echo, 0, dt, st, 0x01, 0x02])

def pk : Packet := packet [0x01, 0x02]

theorem test_decode_get :
    decode 2 .framed (inbound 2 0x01 0x05) = .instr (.inGet01 pk 0x05) ∧
    decode 2 .framed (inbound 2 0x02 0x0C) = .instr (.inGet02 pk 0x0C) ∧
    decode 2 .framed (inbound 2 0x12 0x00) = .instr (.inGet12 pk 0x00) ∧
    decode 2 .framed (inbound 2 0x22 0x17) = .instr (.inGet22 pk 0x17) ∧
    decode 2 .framed (inbound 2 0x32 0xFF) = .instr (.inGet32 pk 0xFF) ∧
    decode 2 .framed (inbound 2 0x03 0x01) = .instr (.inGet03 pk 0x01) := by decide

theorem test_decode_get_end :
    decode 2 .framed (inbound 2 0x01 0x0B) = .instr (.inGet01End pk) ∧
    decode 2 .framed (inbound 2 0x02 0x0B) = .instr (.inGet02End pk) ∧
    decode 2 .framed (inbound 2 0x12 0x0B) = .instr (.inGet12End pk) ∧
    decode 2 .framed (inbound 2 0x22 0x0B) = .instr (.inGet22End pk) ∧
    decode 2 .framed (inbound 2 0x32 0x0B) = .instr (.inGet32End pk) ∧
    decode 2 .framed (inbound 2 0x03 0x0B) = .instr (.inGet03End pk) := by decide

theorem test_decode_get_timeout :
    decode 2 .framed (inbound 2 0x01 0xF1) = .instr (.inGet01Sto pk) ∧
    decode 2 .framed (inbound 2 0x02 0xF1) = .instr (.inGet02Sto pk) ∧
    decode 2 .framed (inbound 2 0x12 0xF1) = .instr (.inGet12Sto pk) ∧
    decode 2 .framed (inbound 2 0x22 0xF1) = .instr (.inGet22Sto pk) ∧
    decode 2 .framed (inbound 2 0x32 0xF1) = .instr (.inGet32Sto pk) ∧
    decode 2 .framed (inbound 2 0x03 0xF1) = .instr (.inGet03Sto pk) := by decide

theorem test_decode_retain :
    decode 2 .framed (inbound 9 0x01 0x0B) = .instr (.inRow01Retain pk 9 0x0B) ∧
    decode 2 .framed (inbound 9 0x02 0xF1) = .instr (.inRow02Retain pk 9 0xF1) ∧
    decode 2 .framed (inbound 9 0x12 0x01) = .instr (.inRow12Retain pk 9 0x01) ∧
    decode 2 .framed (inbound 9 0x22 0x02) = .instr (.inRow22Retain pk 9 0x02) ∧
    decode 2 .framed (inbound 9 0x32 0x03) = .instr (.inRow32Retain pk 9 0x03) := by decide

theorem test_decode_status :
    decode 2 .framed (inbound 0x40 0x07 0x17) = .instr (.inStatus07End pk 0x40) ∧
    decode 2 .framed (inbound 2 0x07 0x0B) = .instr (.inStatus07 pk 2 0x0B) ∧
    decode 2 .framed (inbound 2 0x08 0x17) = .instr (.inStatus08End pk 2) ∧
    decode 2 .framed (inbound 0x40 0x08 0x16) = .instr (.inStatus08 pk 0x40 0x16) ∧
    decode 2 .framed (inbound 2 0x0B 0x17) = .instr (.inStatus0BEnd pk 2) ∧
    decode 2 .framed (inbound 2 0x0B 0xF1) = .instr (.inStatus0B pk 2 0xF1) := by decide

theorem test_decode_other_truncated :
    decode 2 .framed (inbound 2 0x55 0x00) = .instr (.inOther pk 2 0x55 0x00) ∧
    decode 2 .framed (inbound 9 0x03 0xF1) = .instr (.inOther pk 9 0x03 0xF1) ∧
    decode 2 .framed (.inbound 5 (report [0, 0, 2])) = .instr (.inTruncated 5 (report [0, 0, 2])) := by decide

/-- The whole inbound class follows GET_ECHO (30_encoding.md R94). -/
theorem test_decode_echo_is_a_parameter :
    decode 0x77 .framed (inbound 0x77 0x12 0x01) = .instr (.inGet12 pk 0x01) ∧
    decode 0x77 .framed (inbound 2 0x12 0x01) = .instr (.inRow12Retain pk 2 0x01) := by decide

/-- The rejected bytes: OP3..OP7 of 95_test_vectors.md, and a report that is not 64 bytes. -/
theorem test_decode_rejects :
    decode 2 .framed (.transaction .host [0x11, 0x00]) = .rejected (.wrongPort .host 0x11) ∧
    decode 2 .framed (.transaction .transport [0x15]) = .rejected (.wrongPort .transport 0x15) ∧
    decode 2 .framed (.transaction .host [0x10]) = .rejected (.wrongLength .host 0x10) ∧
    decode 2 .framed (.transaction .host [0x02, 0x01, 0x02, 0x02, 0x05]) = .rejected (.wrongLength .host 0x02) ∧
    decode 2 .framed (.transaction .host []) = .rejected (.emptyTransaction .host) ∧
    decode 2 .framed (.inbound 64 [1]) = .rejected .inboundLength := by decide

/-- Table words, as spec/opcode_table.json numbers them (log 11). -/
theorem test_decode_table_words :
    decodeTableWord 8 0x10 = some (.capStart 0) ∧ decodeTableWord 8 0x12 = some (.pktIn 0 (report [])) ∧
    decodeTableWord 48 0x00000200120B = some (.inGet12End (packet [])) ∧
    decodeTableWord 48 0x000000000700 = some (.inStatus07 (packet []) 0 0) := by decide

/-! ## One step at a time, from the vectors of 95_test_vectors.md -/

/-- F5, F2 (remap). -/
theorem test_encFramed :
    outputOf (exec (.encFramed 0xFF 0xFF [0xFF, 0x1B]) idle) =
      host (0 :: report [0xAA, 0xFF, 0x03, 0xFF, 0xFF, 0x1B, 0x1B, 0x17, 0x17]) ∧
    outputOf (exec (.encFramed 0x10 0x06 []) idle) = host (0 :: report [0xAA, 0x10, 0x01, 0x06, 0x18, 0x17, 0x17]) := by
  decide

/-- F11, F13. -/
theorem test_encFramed_errors :
    outputOf (exec (.encFramed 1 1 (List.replicate 58 0)) idle) = host [1] ∧
    outputOf (exec (.encFramed 1 1 (List.replicate 58 0)) (simple idle)) = host [9] := by decide

/-- S1, S4, S5. -/
theorem test_encSimple :
    outputOf (exec (.encSimple 0x05 [0x01, 0x02]) (simple idle)) = host (0 :: report [0x05, 0x01, 0x02]) ∧
    outputOf (exec (.encSimple 0x07 (List.replicate 64 0)) (simple idle)) = host [1] ∧
    outputOf (exec (.encSimple 0x05 [0x01]) idle) = host [9] := by decide

/-- K2, K3. -/
theorem test_encCmd :
    outputOf (exec (.encCmd 1 66000) idle) =
      host (0 :: report [0xAA, 0x11, 0x04, 0x00, 0x01, 0x01, 0xD0, 0xE7, 0x17, 0x17]) ∧
    outputOf (exec (.encCmd 1 66001) idle) = host [8] := by decide

/-- R121's example, and a checksum byte 0x17, which always fails. -/
theorem test_chkValidate :
    outputOf (exec (.chkValidate (report [0xAA, 0x10, 0x01, 0x06, 0x18, 0x17, 0x17])) idle) = host [0, 0] ∧
    outputOf (exec (.chkValidate (report [0xAA, 0x10, 0x01, 0x06, 0x17, 0x17, 0x17])) idle) = host [0, 3] := by decide

/-- E4 as a CLASSIFY, under both sample orders. -/
theorem test_classify :
    outputOf (exec (.classify 64 (report [0, 0, 2, 0, 1, 0, 0, 5])) idle) =
      host ([0, 2, 1, 2, 1, 0, 1, 0, 0x0C, 0, 5] ++ List.replicate 22 0) ∧
    outputOf (exec (.classify 64 (report [0, 0, 2, 0, 1, 0, 0, 5]))
      { idle with params := { params with sampleOrder := .loFirst } }) =
      host ([0, 2, 1, 2, 1, 0, 1, 0, 0x0C, 5, 0] ++ List.replicate 22 0) := by decide

/-- E1 for channel 2 as CAP_START's report; SQ3. -/
theorem test_capStart :
    outputOf (exec (.capStart 2) idle) = host (0 :: report [0xAA, 0x14, 0x02, 0x02, 0x02, 0x1A, 0x17, 0x17]) ∧
    outputOf (exec (.capStart 5) idle) = host [8] := by decide

/-- SQ4, SQ5. -/
theorem test_sendAck :
    outputOf (exec (.sendAck 0) requesting) = transport [0, 2] ∧
    (after (exec (.sendAck 1) requesting) requesting).err = .transportError := by decide

/-- E4 in STREAMING; SQ12. -/
theorem test_pktIn :
    (after (exec (.pktIn 64 (report [0, 0, 2, 0, 1, 0, 0, 5])) streaming) streaming).fb.read 0 = 5 ∧
    outputOf (exec (.pktIn 64 (report [0, 0, 2, 0, 1, 0xF1])) { streaming with cap := 2, attempts := 1 }) =
      transport [3, 4] := by decide

/-- SQ11 (a terminal packet on the cap-th attempt) and SQ13 (assembled before the cap completes). -/
theorem test_pktIn_ends :
    (after (exec (.pktIn 64 (report [0, 0, 2, 0, 1, 0x0B])) { streaming with cap := 2, attempts := 1 }) idle).doneReason =
      .terminal ∧
    (after (exec (.pktIn 64 (report [0, 0, 9, 0, 1, 0, 0, 7])) { streaming with cap := 1 }) idle).fb.read 0 = 7 := by decide

/-- SQ14, SQ15. -/
theorem test_rdTimeout :
    outputOf (exec .rdTimeout streaming) = transport [0, 4] ∧ outputOf (exec .rdTimeout complete) = transport [7, 3] := by
  decide

/-- SQ16, SQ22. -/
theorem test_xportErr :
    outputOf (exec .xportErr requesting) = transport [0, 4] ∧ outputOf (exec .xportErr complete) = transport [7, 3] := by
  decide

/-- SQ17: ACTIVE_CH and the configuration are kept. -/
theorem test_abort :
    outputOf (exec .abort failed) = host [0, 0] ∧
    (after (exec .abort { complete with activeCh := some 3 }) idle).activeCh = some 3 := by decide

/-- RG4, RG7. -/
theorem test_cfgWrite :
    (after (exec (.cfgWrite 2 1) idle) idle).gainMode = some 1 ∧ outputOf (exec (.cfgWrite 0 256) idle) = host [8] := by
  decide

/-- RG2, and RG5's word. -/
theorem test_statusRead :
    outputOf (exec (.statusRead 1) idle) = host [0, 0, 0, 0x13, 0x88] ∧
    outputOf (exec (.statusRead 3) { idle with intTimeMs := some 66000 }) = host [0, 0x80, 0x01, 0x01, 0xD0] := by decide

/-- P1 step 8's cell, SQ20. -/
theorem test_frameRead :
    outputOf (exec (.frameRead 1 11) { complete with fb := ⟨.filled 0, [(35, 0x020B)]⟩ }) = host [0, 0x02, 0x0B] ∧
    outputOf (exec (.frameRead 0 12) complete) = host [8] := by decide

/-- OP1, OP2. -/
theorem test_illegalOp :
    outputOf (exec (.illegalOp .host 0x00 []) idle) = host [10] ∧
    outputOf (exec (.illegalOp .transport 0xFF [1]) idle) = transport [10] := by decide

/-- F1's and S1's reports leaving the block. -/
theorem test_outbound_reports :
    outputOf (exec (.rptFramed 0x01 0x02 [0x05]) requesting) =
      some (.report (report [0xAA, 0x01, 0x02, 0x02, 0x05, 0x0A, 0x17, 0x17])) ∧
    outputOf (exec (.rptSimple 0x05 (0x01 :: 0x02 :: List.replicate 61 0)) (simple requesting)) =
      some (.report (report [0x05, 0x01, 0x02])) := by decide

/-- E2: which half of row 5 each channel's packet fills, and ACTIVE_CH after. -/
theorem test_get_rows :
    (after (exec (.inGet02 (packet [0x0A, 0x01]) 5) streaming) idle).fb.read 120 = 0x0A01 ∧
    (after (exec (.inGet12 (packet [0x0A, 0x01]) 5) streaming) idle).fb.read 132 = 0x0A01 ∧
    (after (exec (.inGet22 (packet [0x0A, 0x01]) 5) streaming) idle).fb.read 120 = 0x0A01 ∧
    (after (exec (.inGet32 (packet [0x0A, 0x01]) 5) streaming) idle).fb.read 132 = 0x0A01 := by decide

theorem test_get_channels :
    (after (exec (.inGet02 (packet []) 5) streaming) idle).activeCh = some 1 ∧
    (after (exec (.inGet12 (packet []) 5) streaming) idle).activeCh = some 2 ∧
    (after (exec (.inGet22 (packet []) 5) streaming) idle).activeCh = some 3 ∧
    (after (exec (.inGet32 (packet []) 5) streaming) idle).activeCh = some 4 := by decide

/-- P1 step 4's last cell, and its 12x12 mode. -/
theorem test_get01 :
    (after (exec (.inGet01 (packet ((List.replicate 22 0) ++ [0x02, 0x0B])) 1) streaming) idle).fb.read 35 = 0x020B ∧
    (after (exec (.inGet01 (packet []) 1) streaming) idle).dim = 12 := by decide

/-- P7 step 7: a terminal row is not assembled; P3 step 4: a sensor timeout. -/
theorem test_get_ends :
    (∀ i ∈ [Instr.inGet01End pk, .inGet02End pk, .inGet12End pk, .inGet22End pk, .inGet32End pk, .inGet03End pk],
      outputOf (exec i streaming) = transport [0, 3] ∧ (after (exec i streaming) idle).dim = 0) ∧
    ∀ i ∈ [Instr.inGet01Sto pk, .inGet02Sto pk, .inGet12Sto pk, .inGet22Sto pk, .inGet32Sto pk, .inGet03Sto pk],
      outputOf (exec i streaming) = transport [3, 4] ∧ (after (exec i streaming) idle).attempts = 1 := by decide

/-- The retain case assembles rows and keeps ACTIVE_CH (SQ13); P1 step 6 and P6 step 8: the status replies. -/
theorem test_retain :
    ∀ i ∈ [Instr.inRow01Retain pk 9 0, .inRow02Retain pk 9 0, .inRow22Retain pk 9 0],
      (after (exec i streaming) idle).fb.read 0 = 0x0102 ∧ (after (exec i streaming) idle).activeCh = none := by decide

theorem test_retain_right_half :
    ∀ i ∈ [Instr.inRow12Retain pk 9 0, .inRow32Retain pk 9 0], (after (exec i streaming) idle).fb.read 12 = 0x0102 := by
  decide

theorem test_status :
    (∀ i ∈ [Instr.inStatus07End pk 0x40, .inStatus08End pk 0, .inStatus0BEnd pk 0],
      outputOf (exec i streaming) = transport [0, 3]) ∧
    ∀ i ∈ [Instr.inStatus07 pk 0x40 0x0B, .inStatus08 pk 0 0, .inStatus0B pk 0 0xF1, .inGet03 pk 1, .inOther pk 2 0x55 0],
      outputOf (exec i streaming) = transport [0, 2] ∧ (after (exec i streaming) idle).dim = 0 := by decide

/-- SQ8, SQ9. -/
theorem test_truncated :
    outputOf (exec (.inTruncated 4 (report [])) streaming) = transport [2, 2] ∧
    outputOf (exec (.inTruncated 0 (report [])) (counting { streaming with cap := 2, attempts := 1 })) =
      transport [2, 3] := by decide

/-! ## Witnesses: a concrete state and operands that meet each statement's hypotheses, clause by clause -/

theorem witness_StepRunsDecodedInstruction :
    ((pending (.transaction .host [0x15]) streaming).inputs = .transaction .host [0x15] :: [] ∧
      decode 2 .framed (.transaction .host [0x15]) = .instr .abort) ∧
    ((pending (.inbound 64 (report [0, 0, 2, 0, 1])) streaming).inputs = .inbound 64 (report [0, 0, 2, 0, 1]) :: [] ∧
      decode 2 .framed (.inbound 64 (report [0, 0, 2, 0, 1])) = .instr (.inGet01 (packet []) 0)) ∧
    ((pending .txRead (simple requesting)).inputs = .txRead :: [] ∧ (simple requesting).txValid = true ∧
      decode 2 .simple (.outbound (simple requesting).tx) = .instr (.rptSimple 0xAA (0x14 :: List.replicate 62 0))) := by
  decide

theorem witness_RejectedTransactionChangesNothing :
    (pending (.transaction .transport []) idle).inputs = .transaction .transport [] :: [] ∧
    ((pending (.transaction .host [0x11, 0]) idle).inputs = .transaction .host [0x11, 0] :: [] ∧ 0x11 ∈ assignedOps ∧
      ¬ (Port.host = .transport ↔ 0x11#8 ∈ [0x11#8, 0x12, 0x13, 0x14])) ∧
    (0x22 ∈ assignedOps ∧ ¬ (Port.transport = .transport ↔ 0x22#8 ∈ [0x11#8, 0x12, 0x13, 0x14])) ∧
    (0x02 ∈ assignedOps ∧ (Port.host = .transport ↔ 0x02#8 ∈ [0x11#8, 0x12, 0x13, 0x14]) ∧
      [0x01#8, 0x02, 0x02, 0x05].length ≠ operandLength 0x02 [0x01, 0x02, 0x02, 0x05]) ∧
    (0x13 ∈ assignedOps ∧ (Port.transport = .transport ↔ 0x13#8 ∈ [0x11#8, 0x12, 0x13, 0x14]) ∧
      [0#8].length ≠ operandLength 0x13 [0]) := by decide

theorem witness_DecodeOfEncode :
    (Instr.inGet01 ⟨6, 1, 2, 3, tail []⟩ 0x0A).wf 2 .framed = true ∧
    (Instr.inOther ⟨64, 1, 2, 3, tail []⟩ 9 0x03 0).wf 2 .framed = true ∧
    (Instr.rptFramed 1 2 (List.replicate 57 0)).wf 2 .framed = true ∧
    (Instr.encSimple 1 (List.replicate 64 0)).wf 2 .framed = true := by decide

theorem witness_EncodeOfDecode :
    decode 2 .framed (.inbound 64 (report [1, 2, 9, 4, 0x32, 3])) = .instr (.inRow32Retain ⟨64, 1, 2, 4, tail []⟩ 9 3) ∧
    (64#8).toNat ≤ 64 ∧ decode 2 .framed (.inbound 65 (report [])) = .instr (.pktIn 65 (report [])) := by decide

theorem witness_ResetEventSetsEveryElement : (pending .reset streaming).inputs = .reset :: [] := by decide

theorem witness_ParametersNeverChange : ∃ t, step (pending (.transaction .host [0x10, 0x02]) idle) = .next t := ⟨_, rfl⟩

/-- Two machines built with different parameters answer one block state differently (00_scope.md R8). -/
theorem test_machine_of_parameters :
    (∃ c, (machine params).step { idle.toBlock with inputs := [.transaction .host [0x02, 1, 1, 0]] } = .next c ∧
      c.output = host (0 :: report [0xAA, 0x01, 0x01, 0x01, 0x03, 0x17, 0x17])) ∧
    ∃ c, (machine { params with protocol := .simple }).step
        { idle.toBlock with inputs := [.transaction .host [0x02, 1, 1, 0]] } = .next c ∧ c.output = host [9] :=
  ⟨⟨_, rfl, rfl⟩, _, rfl, rfl⟩

/-- A capture about to take its last packet: cap 1, nothing received. -/
def lastPacket : State :=
  { streaming with
    cap := 1
    inputs := [.transaction .transport (0x12 :: 0x06 :: report [0, 0, 2, 0, 1, 0])] }

theorem lastPacket_inv : Inv lastPacket := by
  constructor <;>
    simp [lastPacket, streaming, requesting, idle, resetWith, Block.reset, params, inFlight, Config.readTimeoutDefault, report,
      Config.reportBytes, FrameBuffer.filledWith, FrameBuffer.wf, cellsWf, LegalChannel, LegalIntTime]

theorem witness_StepKeepsInvariant : Inv lastPacket ∧ ∃ t, step lastPacket = .next t := ⟨lastPacket_inv, _, rfl⟩

theorem witness_StepNeverStops : Inv lastPacket ∧ lastPacket.inputs ≠ [] := ⟨lastPacket_inv, by decide⟩

theorem witness_EncSimpleBuildsReport :
    idle.params.protocol ≠ .simple ∧ (simple idle).params.protocol = .simple ∧
    63 < (List.replicate 64 (0#8)).length ∧ (List.replicate 63 (0#8)).length ≤ 63 := by decide

theorem witness_EncFramedBuildsReport :
    (simple idle).params.protocol ≠ .framed ∧ idle.params.protocol = .framed ∧
    57 < (List.replicate 58 (0#8)).length ∧ (List.replicate 57 (0#8)).length ≤ 57 := by decide

/-- The ends of each argument range, and the first values outside. -/
theorem witness_EncCmdEncodesCommand :
    (1 ≤ (4#24).toNat ∧ (4#24).toNat ≤ 4) ∧ (1 ≤ (66000#24).toNat ∧ (66000#24).toNat ≤ 66000) ∧ (1#24).toNat ≤ 1 ∧
    idle.params.protocol = .framed ∧ (simple idle).params.protocol = .simple ∧
    3 < (4#8).toNat ∧ 4 < (5#24).toNat ∧ (0#24).toNat = 0 ∧ 66000 < (66001#24).toNat ∧ 1 < (2#24).toNat := by decide

theorem witness_ChkValidateVerdicts : (report [0xAA, 0x10, 0x01, 0x06, 0x18, 0x17, 0x17]).length = 64 := by decide

theorem witness_FramedRoundTrip_encode :
    idle.params.protocol = .framed ∧ (List.replicate 57 (0#8)).length ≤ 57 ∧
    ∃ t r, exec (.encFramed 1 1 (List.replicate 57 0)) idle = .next t ∧ t.output = some (.record .host (0 :: r)) :=
  ⟨rfl, by decide, _, _, rfl, rfl⟩

theorem witness_FramedRoundTrip_validate :
    idle.params.protocol = .framed ∧ (report [0xAA, 0x10, 0x01, 0x06, 0x18, 0x17, 0x17]).length = 64 ∧
    outputOf (exec (.chkValidate (report [0xAA, 0x10, 0x01, 0x06, 0x18, 0x17, 0x17])) idle) = host [0, 0] ∧
    ∀ i < 64, 6 + (byteAt (report [0xAA, 0x10, 0x01, 0x06, 0x18, 0x17, 0x17]) 2).toNat ≤ i →
      byteAt (report [0xAA, 0x10, 0x01, 0x06, 0x18, 0x17, 0x17]) i = 0 := by decide

theorem witness_OutboundReportIsTheFramers :
    idle.params.protocol = .framed ∧ (List.replicate 57 (0#8)).length ≤ 57 ∧ (simple idle).params.protocol = .simple ∧
    (List.replicate 63 (0#8)).length ≤ 63 := by decide

theorem witness_TxReadGivesTx :
    (pending .txRead requesting).inputs = .txRead :: [] ∧ requesting.txValid = true ∧ requesting.tx.length = 64 := by decide

theorem witness_ClassifyWritesOnlyActiveChannel :
    64 < (65#8).toNat ∧ (5#8).toNat < 6 ∧ 6 ≤ (6#8).toNat ∧ (6#8).toNat ≤ 64 ∧ (64#8).toNat ≤ 64 := by decide

theorem witness_ClassifierCases :
    (byteAt (report [0, 0, 2, 0, 3, 0xF1]) 2 = params.getEcho ∧
      byteAt (report [0, 0, 2, 0, 3, 0xF1]) 4 ∈ [0x01#8, 0x02, 0x12, 0x22, 0x32, 0x03]) ∧
    byteAt (report [0, 0, 2, 0, 0x0B, 0x17]) 4 ∈ [0x07#8, 0x08, 0x0B] ∧
    (byteAt (report [0, 0, 9, 0, 1]) 2 ≠ params.getEcho ∧ byteAt (report [0, 0, 9, 0, 1]) 4 ∉ [0x07#8, 0x08, 0x0B]) ∧
    byteAt (report [0, 0, 2, 0, 0x55]) 4 ∉ [0x01#8, 0x02, 0x12, 0x22, 0x32, 0x03] ∧
    byteAt (report [0, 0, 9, 0, 0x32]) 4 ∈ [0x01#8, 0x02, 0x12, 0x22, 0x32] ∧
    byteAt (report [0, 0, 2, 0, 0x03]) 4 ∉ [0x01#8, 0x02, 0x12, 0x22, 0x32] := by decide

/-- The first sample wholly, half and not at all below L. -/
theorem witness_SampleExtraction :
    byteAt (report [0, 0, 2, 0, 3]) 4 ∉ [0x01#8, 0x02, 0x12, 0x22, 0x32] ∧
    byteAt (report [0, 0, 2, 0, 1]) 4 ∈ [0x01#8, 0x02, 0x12, 0x22, 0x32] ∧
    6 + 2 * 11 < (29#8).toNat ∧ ¬ 7 + 2 * 11 < (29#8).toNat ∧ ¬ 6 + 2 * 0 < (6#8).toNat := by decide

theorem witness_ClassifyRecordLayout :
    6 ≤ (64#8).toNat ∧ (64#8).toNat ≤ 64 ∧ ∃ t bytes, exec (.classify 64 (report [0, 0, 2, 0, 1])) idle = .next t ∧
      t.output = some (.record .host bytes) := ⟨by decide, by decide, _, _, rfl, rfl⟩

theorem witness_UnreadBytesDoNotMatter :
    (report [0, 0, 2, 0, 1, 0]).length = 64 ∧ (report [1, 1, 2, 1, 1, 0, 7]).length = 64 ∧
    (∀ i < (6#8).toNat, i = 2 ∨ i = 4 ∨ i = 5 ∨ (6 ≤ i ∧ i ≤ 29) →
      byteAt (report [0, 0, 2, 0, 1, 0]) i = byteAt (report [1, 1, 2, 1, 1, 0, 7]) i) ∧
    report [0, 0, 2, 0, 1, 0] ≠ report [1, 1, 2, 1, 1, 0, 7] := by decide

/-- The addresses on both sides of the write enable, and the last row whose address fits 10 bits. -/
theorem witness_MapperOutputs :
    (11 < 12) ∧ 0x55 ∉ [0x01#8, 0x02, 0x12, 0x22, 0x32] ∧ (mapPixel 0x01 11 11 12).we = true ∧
    ((mapPixel 0x32 23 11 24).we = true ∧ (mapPixel 0x32 23 11 24).a = 575) ∧ (mapPixel 0x32 24 11 24).we = false ∧
    ((mapPixel 0x02 42 11 24).r * 24 + (mapPixel 0x02 42 11 24).c < 1024 ∧ (mapPixel 0x02 42 11 24).a = 1019) := by decide

theorem witness_ChannelAndQuadrant :
    1 ≤ (1#3).toNat ∧ (4#3).toNat ≤ 4 ∧ 0x32#8 = (((4#3).setWidth 8 - 1) <<< 4) ||| 0x02 ∧
    0x02#8 = (((1#3).setWidth 8 - 1) <<< 4) ||| 0x02 := by decide

/-- A Capture report that is too long for the layout. -/
def longCapture : State :=
  { idle with params := { params with semFramed := [(.capture 4, ⟨0, 0, List.replicate 58 0⟩)] } }

/-- What `encodeCommand` answers, with the report's bytes or the error's number. -/
def built (r : Except ErrCode Report) : List Byte :=
  match r with
  | .ok rep => rep
  | .error e => [errCode e]

theorem witness_CapStartBeginsCapture :
    requesting.phase = .requesting ∧ streaming.phase = .streaming ∧
    (failed.phase ≠ .requesting ∧ failed.phase ≠ .streaming) ∧ (0#8).toNat < 1 ∧ 4 < (5#8).toNat ∧
    (1 ≤ (1#8).toNat ∧ (4#8).toNat ≤ 4) ∧ (idle.phase ≠ .requesting ∧ idle.phase ≠ .streaming) := by decide

theorem witness_CapStartBeginsCapture_error :
    encodeCommand longCapture.params (.capture (BitVec.ofNat 3 (4#8).toNat)) = .error .payloadTooLarge := rfl

theorem witness_CapStartBeginsCapture_report :
    encodeCommand idle.params (.capture (BitVec.ofNat 3 (1#8).toNat)) = .ok (framedReport 0x14 0x02 [1]) := rfl

theorem witness_RestartIsAbortThenStart :
    failed.phase = .failed ∧ complete.phase = .complete ∧ 1 ≤ (1#8).toNat ∧ (1#8).toNat ≤ 4 ∧
    encodeCommand failed.params (.capture (BitVec.ofNat 3 (1#8).toNat)) = .ok (framedReport 0x14 0x02 [1]) :=
  ⟨rfl, rfl, by decide, by decide, rfl⟩

theorem witness_SendAckStartsStreaming :
    streaming.phase ≠ .requesting ∧ requesting.phase = .requesting ∧ 2 ≤ (2#8).toNat := by decide

theorem witness_RdTimeoutFailsCapture : streaming.phase = .streaming ∧ requesting.phase ≠ .streaming := by decide

theorem witness_XportErrFailsCapture :
    requesting.phase = .requesting ∧ streaming.phase = .streaming ∧
    (complete.phase ≠ .requesting ∧ complete.phase ≠ .streaming) := by decide

theorem witness_PacketOutsideStreaming :
    DeliversReport (.pktIn 64 (report [])) ∧ requesting.phase ≠ .streaming ∧ streaming.phase = .streaming ∧
    64 < (65#8).toNat := ⟨.inl ⟨_, _, rfl⟩, by decide, by decide, by decide⟩

theorem witness_TruncatedPacketIsIgnored :
    streaming.phase = .streaming ∧ (5#8).toNat < 6 ∧ streaming.params.countTruncated = false ∧
    (counting streaming).params.countTruncated = true ∧
    (counting { streaming with attempts := 18 }).attempts.toNat + 1 < (counting streaming).cap.toNat ∧
    (counting streaming).cap.toNat ≤ (counting { streaming with attempts := 19 }).attempts.toNat + 1 := by decide

theorem witness_PktInAppliesPacket :
    streaming.phase = .streaming ∧ streaming.fb.wf = true ∧ 6 ≤ (6#8).toNat ∧ (64#8).toNat ≤ 64 ∧
    (classifyReport params 1 6 (report [0, 0, 2, 0, 1, 0xF1])).err = some .sensorTimeout ∧
    ((classifyReport params 1 64 (report [0, 0, 2, 0, 1, 0x0B])).err = none ∧
      (classifyReport params 1 64 (report [0, 0, 2, 0, 1, 0x0B])).contUpd.getD streaming.cont = false) ∧
    ((classifyReport params 1 6 (report [0, 0, 9, 0, 0x32, 23])).err = none ∧
      (classifyReport params 1 6 (report [0, 0, 9, 0, 0x32, 23])).contUpd.getD streaming.cont = true) ∧
    { streaming with attempts := 18 }.attempts.toNat + 1 < streaming.cap.toNat ∧
    streaming.cap.toNat ≤ { streaming with attempts := 19 }.attempts.toNat + 1 := by decide

theorem witness_PktInIsItsInboundClass :
    (report [0, 0, 2, 0, 7, 0x17]).length = 64 ∧ (6#8).toNat ≤ 64 ∧
    decode streaming.params.getEcho streaming.params.protocol (.inbound 6 (report [0, 0, 2, 0, 7, 0x17])) =
      .instr (.inStatus07End ⟨6, 0, 0, 0, tail []⟩ 2) ∧
    decode streaming.params.getEcho streaming.params.protocol (.inbound 5 (report [])) =
      .instr (.inTruncated 5 (report [])) := by decide

/-- The hypotheses that the statements about a packet of 6..64 meaningful bytes in STREAMING share, at both ends. -/
theorem witness_packets :
    streaming.phase = .streaming ∧ (packet []).wf = true ∧ (Packet.mk 6 0 0 0 (tail [])).wf = true ∧
    streaming.fb.wf = true ∧ { streaming with attempts := 18 }.attempts.toNat + 1 < streaming.cap.toNat ∧
    streaming.cap.toNat ≤ { streaming with attempts := 19 }.attempts.toNat + 1 := by decide

theorem witness_ContinuingGetReplyIsAssembled :
    (Instr.inGet32, 24#5, 12, 4#3) ∈ [(Instr.inGet01, 12#5, 0, 1#3), (Instr.inGet02, 24, 0, 1), (Instr.inGet12, 24, 12, 2),
      (Instr.inGet22, 24, 0, 3), (Instr.inGet32, 24, 12, 4)] ∧
    streaming.phase = .streaming ∧ (packet []).wf = true ∧ 0x0A#8 ≠ 0x0B ∧ 0x0A#8 ≠ 0xF1 ∧ streaming.fb.wf = true :=
  ⟨by simp, by decide, by decide, by decide, by decide, by decide⟩

theorem witness_RetainedRowIsAssembled :
    (Instr.inRow12Retain, 24#5, 12) ∈ [(Instr.inRow01Retain, 12#5, 0), (Instr.inRow02Retain, 24, 0),
      (Instr.inRow12Retain, 24, 12), (Instr.inRow22Retain, 24, 0), (Instr.inRow32Retain, 24, 12)] ∧
    streaming.phase = .streaming ∧ (packet []).wf = true ∧ 9 ≠ streaming.params.getEcho ∧ streaming.fb.wf = true ∧
    streaming.cont = true ∧ { streaming with cont := false }.cont = false :=
  ⟨by simp, by decide, by decide, by decide, by decide, by decide, by decide⟩

theorem witness_TerminalGetReplyCompletes :
    (Instr.inGet03End, 1#3) ∈ [(Instr.inGet01End, 1#3), (Instr.inGet02End, 1), (Instr.inGet12End, 2),
      (Instr.inGet22End, 3), (Instr.inGet32End, 4), (Instr.inGet03End, 1)] ∧
    streaming.phase = .streaming ∧ (packet []).wf = true := ⟨by simp, by decide, by decide⟩

theorem witness_SensorTimeoutFailsCapture :
    (Instr.inGet22Sto, 3#3) ∈ [(Instr.inGet01Sto, 1#3), (Instr.inGet02Sto, 1), (Instr.inGet12Sto, 2),
      (Instr.inGet22Sto, 3), (Instr.inGet32Sto, 4), (Instr.inGet03Sto, 1)] ∧
    streaming.phase = .streaming ∧ (packet []).wf = true := ⟨by simp, by decide, by decide⟩

theorem witness_TerminalStatusCompletes :
    Instr.inStatus08End ∈ [Instr.inStatus07End, Instr.inStatus08End, Instr.inStatus0BEnd] ∧
    streaming.phase = .streaming ∧ (packet []).wf = true := ⟨by simp, by decide, by decide⟩

theorem witness_ContinuingPacketWithoutRow :
    streaming.phase = .streaming ∧ (packet []).wf = true ∧
    (Instr.inStatus0B (packet []) 2 0x16).wf streaming.params.getEcho streaming.params.protocol = true ∧
    (Instr.inGet03 (packet []) 0x0A).wf streaming.params.getEcho streaming.params.protocol = true ∧
    (Instr.inOther (packet []) 9 0x03 0).wf streaming.params.getEcho streaming.params.protocol = true ∧
    streaming.cont = true := by decide

theorem witness_OtherPacketWithContinuationOff :
    { streaming with cont := false }.phase = .streaming ∧ (packet []).wf = true ∧
    { streaming with cont := false }.cont = false := by decide

theorem witness_ConsumeRowIsIdempotent : { streaming with fb := ⟨.filled 0, [(0, 1), (575, 2)]⟩ }.fb.wf = true := by decide

theorem witness_StatusReadGivesWord :
    complete.phase = .complete ∧ complete.frameMeta = some ⟨some 1, none, some 2⟩ ∧ streaming.phase ≠ .complete ∧
    (0x16#8, (doneCode complete.doneReason).toNat) ∈ [(0x00#8, complete.cap.toNat),
      (0x16, (doneCode complete.doneReason).toNat)] ∧
    0x04 ∉ [0x00#8, 0x01, 0x02, 0x03, 0x10, 0x11, 0x12, 0x13, 0x14, 0x15, 0x16, 0x17, 0x18, 0x19, 0x1A] ∧
    0x1B ∉ [0x00#8, 0x01, 0x02, 0x03, 0x10, 0x11, 0x12, 0x13, 0x14, 0x15, 0x16, 0x17, 0x18, 0x19, 0x1A] := by decide

theorem witness_FrameReadGivesCell :
    streaming.phase ≠ .complete ∧ complete.phase = .complete ∧ complete.dim.toNat ≤ (12#8).toNat ∧ complete.dim = 12 ∧
    (11#8).toNat < complete.dim.toNat ∧ (23#8).toNat < { complete with dim := 24 }.dim.toNat ∧
    ((24#8).toNat < { complete with dim := 25 }.dim.toNat ∧ (0#8).toNat < { complete with dim := 25 }.dim.toNat ∧
      575 < (24#8).toNat * 24 + (0#8).toNat) := by decide

theorem witness_CfgWriteWritesOneRegister :
    streaming.phase = .streaming ∧ (complete.phase ≠ .requesting ∧ complete.phase ≠ .streaming) ∧
    1 ≤ (255#32).toNat ∧ (255#32).toNat ≤ 255 ∧ 0xFFFFFFFF#32 ≠ 0 ∧ (1#32).toNat ≤ 1 ∧ (66000#32).toNat ≤ 66000 ∧
    255 < (256#32).toNat ∧ 1 < (2#32).toNat ∧ 66000 < (66001#32).toNat ∧ 3 < (4#8).toNat := by decide

theorem witness_UnassignedOpIsIllegal :
    (0x06 ≤ (0x0F#8).toNat ∧ (0x0F#8).toNat ≤ 0x0F) ∧ (0x16 ≤ (0x16#8).toNat ∧ (0x16#8).toNat ≤ 0x1F) ∧
    0x23 ≤ (0xFF#8).toNat := by decide

/-- Each of the seven transitions is taken from a state of the tests. -/
theorem witness_StateTransitions :
    (after (exec (.capStart 1) failed) failed).phase = .requesting ∧
    (after (exec (.sendAck 0) requesting) requesting).phase = .streaming ∧
    (after (exec (.sendAck 1) requesting) requesting).phase = .failed ∧
    (after (exec (.inStatus07End pk 0) streaming) streaming).phase = .complete ∧
    (after (exec (.inGet01Sto pk) streaming) streaming).phase = .failed ∧
    (after (exec .rdTimeout streaming) streaming).phase = .failed ∧
    (after (exec .abort complete) complete).phase = .idle := by decide

theorem witness_StateTransitions_next : ∃ t, exec .abort complete = .next t ∧ t.phase ≠ complete.phase :=
  ⟨_, rfl, by decide⟩

theorem witness_OperationErrorChangesNothing :
    (∃ t, exec (.capStart 5) idle = .next t ∧ t.output = some (.record .host [8])) ∧
    (∃ t, exec (.pktIn 5 (report [])) streaming = .next t ∧ t.output = some (.record .transport [2, 2])) ∧
    streaming.params.countTruncated = false := ⟨⟨_, rfl, rfl⟩, ⟨_, rfl, rfl⟩, rfl⟩

theorem witness_NoNestedFailure :
    failed.phase = .failed ∧ complete.phase = .complete ∧ DeliversReport (.inGet01 pk 0) :=
  ⟨rfl, rfl, .inr ⟨2, _, _, rfl⟩⟩

theorem witness_FrameVisibleOnlyInComplete :
    streaming.phase ≠ .complete ∧ 0x17 ≤ (0x17#8).toNat ∧ (0x1A#8).toNat ≤ 0x1A ∧
    (∃ t u, exec (.inGet01 pk 0) streaming = .next t ∧
      exec (.inGet01 pk 0) { streaming with fb := ⟨.filled 1, []⟩ } = .next u) :=
  ⟨by decide, by decide, by decide, _, _, rfl, rfl⟩

theorem witness_ActiveChannelWriters :
    (∃ t, exec (.capStart 1) idle = .next t) ∧ ¬ DeliversReport (.capStart 1) ∧ ∀ len r, Instr.capStart 1 ≠ .classify len r :=
  ⟨⟨_, rfl⟩, (by rintro (⟨_, _, h⟩ | ⟨_, _, _, h⟩) <;> cases h), nofun⟩

theorem witness_ConfigurationWriters :
    (∃ t, exec (.capStart 1) idle = .next t) ∧ ∀ reg v, Instr.capStart 1 ≠ .cfgWrite reg v := ⟨⟨_, rfl⟩, nofun⟩

/-- A row packet whose last cell is the last of the frame buffer, a delivery without a row, and a truncated one. -/
theorem witness_FrameBufferWriters :
    ((∃ t, exec (.inGet32 pk 23) streaming = .next t) ∧ (∀ ch, Instr.inGet32 pk 23 ≠ .capStart ch) ∧
      encode 2 (.inGet32 pk 23) = .inbound 64 (report [0, 0, 2, 0, 0x32, 23, 1, 2]) ∧ pixelAddr 0x32 23 0 = 564 ∧
      pixelAddr 0x32 23 11 = 575) ∧
    ((∃ t, exec (.inStatus07 pk 9 0) streaming = .next t) ∧
      encode 2 (.inStatus07 pk 9 0) = .inbound 64 (report [0, 0, 9, 0, 7, 0, 1, 2]) ∧
      byteAt (report [0, 0, 9, 0, 7, 0, 1, 2]) 4 ∉ [0x01#8, 0x02, 0x12, 0x22, 0x32]) ∧
    ((∃ t, exec (.pktIn 5 (report [0, 0, 2, 0, 1])) streaming = .next t) ∧ (5#8).toNat < 6) ∧
    ((∃ t, exec (.pktIn 64 (report [0, 0, 2, 0, 1])) requesting = .next t) ∧ requesting.phase ≠ .streaming) :=
  ⟨⟨⟨_, rfl⟩, nofun, by decide, by decide, by decide⟩, ⟨⟨_, rfl⟩, by decide, by decide⟩, ⟨⟨_, rfl⟩, by decide⟩,
    ⟨_, rfl⟩, by decide⟩

theorem witness_TransmitRegisterWriters :
    (∃ t, exec (.encCmd 3 1) requesting = .next t ∧ t.txValid = true) ∧ ∀ ch, Instr.encCmd 3 1 ≠ .capStart ch :=
  ⟨⟨_, rfl, rfl⟩, nofun⟩

theorem witness_CaptureStateWriters :
    (∃ t, exec (.inGet32 pk 0) streaming = .next t) ∧ (∀ ch, Instr.inGet32 pk 0 ≠ .capStart ch) ∧
    Instr.inGet32 pk 0 ≠ .abort ∧ { streaming with dim := 12 }.dim ≠ 0 ∧ requesting.phase ≠ .streaming :=
  ⟨⟨_, rfl⟩, nofun, nofun, by decide, by decide⟩

theorem witness_MaxAttemptsIsNeverReported :
    (∃ t, exec (.inTruncated 0 (report [])) streaming = .next t ∧ t.output = some (.record .transport [2, 2])) ∧
    streaming.err ≠ .maxAttemptsExceeded := ⟨⟨_, rfl, rfl⟩, by decide⟩

theorem witness_CaptureEndsWithinCap :
    Inv lastPacket ∧ lastPacket.phase = .streaming ∧ (6 ≤ (6#8).toNat ∧ (6#8).toNat ≤ 64) ∧
    (report [0, 0, 2, 0, 1, 0]).length = 64 ∧
    lastPacket.inputs = [(0x06#8, report [0, 0, 2, 0, 1, 0])].map
      (fun q => Input.transaction .transport (0x12 :: q.1 :: q.2)) ++ [] ∧
    lastPacket.cap.toNat ≤ lastPacket.attempts.toNat + [(0x06#8, report [0, 0, 2, 0, 1, 0])].length :=
  ⟨lastPacket_inv, by decide, by decide, by decide, rfl, by decide⟩

end Sys2Proof.Tests
end

section
/-! PROOF. 00_scope.md: what an event runs (R5), and that the elaboration parameters are an argument of the machine (R8). -/

namespace Sys2Proof.Machine

/-! ## What an event decodes to, and what the step then runs -/

@[simp] theorem fetch_transaction (p : Params) (b : Block) (port : Port) (bytes : List Byte) :
    fetch p b (.transaction port bytes) = some (decode p.getEcho p.protocol (.transaction port bytes)) := rfl

@[simp] theorem fetch_inbound (p : Params) (b : Block) (len : Byte) (r : Report) :
    fetch p b (.inbound len r) = some (decode p.getEcho p.protocol (.inbound len r)) := rfl

theorem fetch_txRead_of_txValid (p : Params) {b : Block} (h : b.txValid = true) :
    fetch p b .txRead = some (decode p.getEcho p.protocol (.outbound b.tx)) := if_pos h

/-- An event that the decoder reads as an instruction runs it, and is taken. -/
theorem step_eq_exec_of_fetch {s : State} {inp : Input} {rest : List Input} {i : Instr}
    (hin : s.inputs = inp :: rest) (hf : fetch s.params s.toBlock inp = some (.instr i)) :
    step s = exec i { s with inputs := rest } := by
  simp only [step, hin, hf]

/-- Settles O1: each of the three kinds of event is one fetch, and a fetched instruction is run. -/
theorem stepRunsDecodedInstruction : Obligations.StepRunsDecodedInstruction := by
  intro s rest i
  refine ⟨fun port bytes hin hd => ?_, fun len r hin hd => ?_, fun hin hv hd => ?_⟩
  · exact step_eq_exec_of_fetch hin (by rw [fetch_transaction, hd])
  · exact step_eq_exec_of_fetch hin (by rw [fetch_inbound, hd])
  · exact step_eq_exec_of_fetch hin (by rw [fetch_txRead_of_txValid _ hv, hd])

/-! ## Every operation is a function of the parameters from block state to block state -/

/-- Every instruction but FRAME_READ is one function of the parameters and the block's state, in whatever state it runs. -/
theorem exec_eq_operate {i : Instr} (hi : ∀ row col, i ≠ .frameRead row col) :
    ∃ f, ∀ s, exec i s = .next (s.operate f) := by
  cases i with
  | frameRead row col => exact absurd rfl (hi row col)
  | _ => exact ⟨_, fun _ => rfl⟩

/-- FRAME_READ answers a record, or stops at a cell that does not exist (log 16). -/
theorem execFrameRead_operates_or_faults (row col : Byte) (s : State) :
    (∃ f, execFrameRead row col s = .next (s.operate f)) ∨
    ∃ addr, execFrameRead row col s = .fault (.noSuchCell addr) := by
  unfold execFrameRead
  split_ifs
  · exact .inl ⟨_, rfl⟩
  · exact .inl ⟨_, rfl⟩
  · split
    · exact .inl ⟨_, rfl⟩
    · exact .inr ⟨_, rfl⟩

theorem exec_keeps_params {i : Instr} {s t : State} (h : exec i s = .next t) : t.params = s.params := by
  by_cases hi : ∃ row col, i = .frameRead row col
  · obtain ⟨row, col, rfl⟩ := hi
    obtain ⟨f, hf⟩ | ⟨addr, hf⟩ := execFrameRead_operates_or_faults row col s
    · cases hf.symm.trans h
      rfl
    · cases hf.symm.trans h
  · obtain ⟨f, hf⟩ := exec_eq_operate (i := i) fun row col hrc => hi ⟨row, col, hrc⟩
    cases (hf s).symm.trans h
    rfl

theorem step_keeps_params {s t : State} (h : step s = .next t) : t.params = s.params := by
  obtain ⟨-, hs⟩ | ⟨inp, rest, -, ⟨-, hs⟩ | ⟨i, -, hs⟩ | ⟨e, -, hs⟩⟩ := step_cases s
  · cases hs.symm.trans h
    rfl
  · cases hs.symm.trans h
    rfl
  · exact exec_keeps_params (s := { s with inputs := rest }) (hs.symm.trans h)
  · cases hs.symm.trans h
    rfl

/-! ## The host's core and the machine of the parameters -/

/-- An outcome of the machine of parameters `p`, as an outcome of the host's core: it undoes `blockOutcome` where the state
carries `p`. -/
def besideParams (p : Params) : Host.Outcome Block Fault Refusal → Host.Outcome State Fault Refusal
  | .next b => .next { toBlock := b, params := p }
  | .fault e => .fault e
  | .refused e => .refused e

/-- Because a step keeps the parameters, putting them back beside the block's state gives the step again. -/
theorem step_eq_besideParams_machine_step (p : Params) (b : Block) :
    step { toBlock := b, params := p } = besideParams p ((machine p).step b) := by
  change _ = besideParams p (blockOutcome (step { toBlock := b, params := p }))
  cases h : step { toBlock := b, params := p } with
  | next t =>
    have hp : t.params = p := step_keeps_params h
    subst hp
    rfl
  | fault e => rfl
  | refused e => rfl

theorem run_succ_of_step_next {M : Host.Core} {s s' : M.State} (n : Nat) (h : M.step s = .next s') :
    M.run (n + 1) s = M.run n s' := by
  rw [Host.Core.run, h]

theorem run_succ_of_step_fault {M : Host.Core} {s : M.State} {e : M.Fault} (n : Nat) (h : M.step s = .fault e) :
    M.run (n + 1) s = .fault e := by
  rw [Host.Core.run, h]

theorem run_succ_of_step_refused {M : Host.Core} {s : M.State} {e : M.Refusal} (n : Nat) (h : M.step s = .refused e) :
    M.run (n + 1) s = .refused e := by
  rw [Host.Core.run, h]

theorem core_run_eq_besideParams_machine_run (p : Params) (n : Nat) (b : Block) :
    Host.Core.run core n { toBlock := b, params := p } = besideParams p (Host.Core.run (machine p) n b) := by
  induction n generalizing b with
  | zero => rfl
  | succ n ih =>
    have hstep : core.step { toBlock := b, params := p } = besideParams p ((machine p).step b) :=
      step_eq_besideParams_machine_step p b
    cases hm : (machine p).step b with
    | next c =>
      rw [hm] at hstep
      rw [run_succ_of_step_next n hm]
      exact (run_succ_of_step_next n hstep).trans (ih c)
    | fault e =>
      rw [hm] at hstep
      rw [run_succ_of_step_fault n hm]
      exact run_succ_of_step_fault n hstep
    | refused e =>
      rw [hm] at hstep
      rw [run_succ_of_step_refused n hm]
      exact run_succ_of_step_refused n hstep

/-- Settles O8: a step keeps the parameters, so by induction on the number of steps the host's core runs as the machine of
the parameters. -/
theorem parametersNeverChange : Obligations.ParametersNeverChange := by
  refine ⟨fun s t => step_keeps_params, fun p n b => ?_, fun p => rfl⟩
  rw [core_run_eq_besideParams_machine_run]
  cases Host.Core.run (machine p) n b <;> rfl

end Sys2Proof.Machine
end

section
/-! PROOF. 10_state.md: which instruction writes which element of the state, the invariant (R42), and the read of TX (R36). -/

namespace Sys2Proof.Machine

/-! ## What one instruction can write

`Effect` lists every way an instruction can change the block's state, apart from the result it puts out. `exec_answers`
ties it to `exec`; each statement about writers is a case analysis of it. -/

/-- What a delivered report and its classification have in common: data_type and row byte are the report's, and a channel
update is a channel number. -/
structure Carries (i : Instr) (len : Byte) (d : DecodedResponse) : Prop where
  delivers : DeliversReport i
  report : ∀ (g l : Byte) (r : Report), i = .pktIn l r ∨ encode g i = .inbound l r →
    l = len ∧ byteAt r 4 = d.dt ∧ (d.row = none ∨ d.row = some (byteAt r 5))
  channel : LegalChannel d.chUpd

/-- The causes that FAIL is called with (10_state.md R28). -/
def FailureCause (e : ErrCode) : Prop := e = .sensorTimeout ∨ e = .timedOut ∨ e = .transportError

/-- The state `c` that instruction `i` can leave behind from `b`, before its result is put out. -/
inductive Effect (p : Params) (b : Block) : Instr → Block → Prop
  | unchanged (i : Instr) : Effect p b i b
  | classified (len : Byte) (r : Report) (u : Option (BitVec 3)) (hu : LegalChannel u) :
      Effect p b (.classify len r) (updateChannel u { b with draws := b.draws + 1 })
  | started (ch : Byte) (rep : Report) (hb : inFlight b = false) (hrep : rep.length = Config.reportBytes) :
      Effect p b (.capStart ch) (startCapture p rep b)
  | acknowledged (st : Byte) (hb : b.phase = .requesting) :
      Effect p b (.sendAck st) { b with txValid := false, phase := .streaming }
  | failed (i : Instr) (cause : ErrCode) (hb : inFlight b = true) (hcause : FailureCause cause) :
      Effect p b i (failCapture cause b)
  | aborted : Effect p b .abort (returnToIdle b)
  | configured (reg : Byte) (v : BitVec 32) (c : Block) (hb : inFlight b = false) (hc : configWrite reg v b = some c) :
      Effect p b (.cfgWrite reg v) c
  | truncatedCounted (i : Instr) (hi : DeliversReport i) (hb : b.phase = .streaming)
      (hcap : b.attempts.toNat + 1 < b.cap.toNat) : Effect p b i (countAttempt b)
  | truncatedAtCap (i : Instr) (hi : DeliversReport i) (hb : b.phase = .streaming) :
      Effect p b i (completeCapture .cap (countAttempt b))
  | sensorTimedOut (i : Instr) (len : Byte) (d : DecodedResponse) (hi : Carries i len d) (hb : b.phase = .streaming) :
      Effect p b i (failCapture .sensorTimeout (countPacket d b))
  | terminated (i : Instr) (len : Byte) (d : DecodedResponse) (hi : Carries i len d) (hb : b.phase = .streaming) :
      Effect p b i (completeCapture .terminal (countPacket d b))
  | consumedAtCap (i : Instr) (len : Byte) (d : DecodedResponse) (hi : Carries i len d) (hb : b.phase = .streaming)
      (hlen : 6 ≤ len.toNat) : Effect p b i (completeCapture .cap (consumeRow d (countPacket d b)))
  | consumed (i : Instr) (len : Byte) (d : DecodedResponse) (hi : Carries i len d) (hb : b.phase = .streaming)
      (hlen : 6 ≤ len.toNat) (hcont : d.contUpd.getD b.cont = true) (hcap : b.attempts.toNat + 1 < b.cap.toNat) :
      Effect p b i (consumeRow d (countPacket d b))

/-- `c` is an effect of `i` with a result put out. -/
def Answers (p : Params) (b : Block) (i : Instr) (c : Block) : Prop :=
  ∃ e o, Effect p b i e ∧ c = { e with output := o }

theorem Effect.respond {p : Params} {b c : Block} {i : Instr} (h : Effect p b i c) (port : Port) (bytes : List Byte) :
    Answers p b i (respond port bytes c) := ⟨c, _, h, rfl⟩

theorem answers_respond (p : Params) (i : Instr) (port : Port) (bytes : List Byte) (b : Block) :
    Answers p b i (respond port bytes b) := (Effect.unchanged i).respond port bytes

theorem answers_emit (p : Params) (i : Instr) (r : Report) (b : Block) : Answers p b i (emit r b) :=
  ⟨b, _, .unchanged i, rfl⟩

/-! ### The framer -/

theorem framedReport_length (cmd dt : Byte) {payload : List Byte} (h : payload.length ≤ Config.maxFramedPayload) :
    (framedReport cmd dt payload).length = Config.reportBytes :=
  Laws.EncodedLength.rptFramed cmd dt payload 0 .framed (by simpa [Instr.wf, Config.maxFramedPayload] using h)

theorem simpleReport_length (opcode : Byte) {args : List Byte} (h : args.length ≤ Config.maxSimpleParams) :
    (simpleReport opcode args).length = Config.reportBytes := by
  simp only [simpleReport, Config.maxSimpleParams, Config.reportBytes, List.length_cons, List.length_append,
    List.length_replicate] at h ⊢
  omega

theorem buildFramed_length {p : Params} {cmd dt : Byte} {payload : List Byte} {rep : Report}
    (h : buildFramed p cmd dt payload = .ok rep) : rep.length = Config.reportBytes := by
  unfold buildFramed at h
  split_ifs at h with hp hl
  cases h
  exact framedReport_length cmd dt (Nat.le_of_not_lt hl)

theorem buildSimple_length {p : Params} {opcode : Byte} {args : List Byte} {rep : Report}
    (h : buildSimple p opcode args = .ok rep) : rep.length = Config.reportBytes := by
  unfold buildSimple at h
  split_ifs at h with hp hl
  cases h
  exact simpleReport_length opcode (Nat.le_of_not_lt hl)

theorem buildCommand_length {p : Params} {kind : Byte} {arg : BitVec 24} {rep : Report}
    (h : buildCommand p kind arg = .ok rep) : rep.length = Config.reportBytes := by
  unfold buildCommand at h
  split at h
  · unfold encodeCommand at h
    split at h
    · exact buildFramed_length h
    · exact buildSimple_length h
  · cases h

theorem answers_respondReport (p : Params) (i : Instr) (r : Except ErrCode Report) (b : Block) :
    Answers p b i (respondReport r b) := by
  cases r with
  | ok rep => exact answers_respond p i _ _ b
  | error e => exact answers_respond p i _ _ b

theorem answers_emitBuilt (p : Params) (i : Instr) (r : Except ErrCode Report) (b : Block) :
    Answers p b i (emitBuilt r b) := by
  cases r with
  | ok rep => exact answers_emit p i rep b
  | error e => exact answers_respond p i _ _ b

/-! ### The classifier -/

/-- A channel update is 1..4: it comes of the data_types of GET_SET alone (41_classifier.md R145). -/
theorem chUpdate_legal (g echo dt : Byte) : LegalChannel (chUpdate g echo dt) := by
  unfold chUpdate
  split_ifs with h
  · have hdt : dt ∈ getSet := by simp only [isGetReply, Bool.and_eq_true, decide_eq_true_eq] at h; exact h.2
    simp only [getSet, List.mem_cons, List.not_mem_nil, or_false] at hdt
    rcases hdt with rfl | rfl | rfl | rfl | rfl | rfl <;> decide
  · exact nofun

theorem classifyReport_chUpd (p : Params) (n : Nat) (len : Byte) (r : Report) :
    (classifyReport p n len r).chUpd = chUpdate p.getEcho (byteAt r 2) (byteAt r 4) := by
  simp only [classifyReport]
  split <;> rfl

theorem classifyReport_dt (p : Params) (n : Nat) (len : Byte) (r : Report) :
    (classifyReport p n len r).dt = byteAt r 4 := by
  simp only [classifyReport]
  split <;> rfl

theorem classifyReport_row (p : Params) (n : Nat) (len : Byte) (r : Report) :
    (classifyReport p n len r).row = none ∨ (classifyReport p n len r).row = some (byteAt r 5) := by
  simp only [classifyReport]
  split
  · exact .inr rfl
  · exact .inl rfl

theorem answers_execClassify (len : Byte) (r : Report) (s : State) :
    ∃ c, execClassify len r s = .next { s with toBlock := c } ∧ Answers s.params s.toBlock (.classify len r) c := by
  refine ⟨_, rfl, ?_⟩
  simp only
  split_ifs
  · exact answers_respond _ _ _ _ _
  · exact answers_respond _ _ _ _ _
  · exact (Effect.classified len r _ (by rw [classifyReport_chUpd]; exact chUpdate_legal _ _ _)).respond _ _

/-! ### Deliveries -/

theorem carries_pktIn (p : Params) (n : Nat) (len : Byte) (r : Report) :
    Carries (.pktIn len r) len (classifyReport p n len r) where
  delivers := .inl ⟨len, r, rfl⟩
  report g l r' h := by
    obtain h | h := h
    · cases h
      exact ⟨rfl, (classifyReport_dt ..).symm, classifyReport_row ..⟩
    · cases h
  channel := by rw [classifyReport_chUpd]; exact chUpdate_legal _ _ _

/-- An inbound class whose reports hold data_type `d.dt` and the row byte `st` (30_encoding.md R90, R91). -/
theorem carries_packet {i : Instr} {pk : Packet} {st : Byte} {d : DecodedResponse} (hp : ∀ l r, i ≠ .pktIn l r)
    (he : ∀ g, ∃ echo, encode g i = encodePacket pk echo d.dt st) (hrow : d.row = none ∨ d.row = some st)
    (hch : LegalChannel d.chUpd) : Carries i pk.len d where
  delivers := .inr (by obtain ⟨echo, h⟩ := he 0; exact ⟨0, _, _, h⟩)
  report g l r h := by
    obtain h | h := h
    · exact absurd h (hp l r)
    · obtain ⟨echo, h'⟩ := he g
      cases h'.symm.trans h
      exact ⟨rfl, rfl, hrow⟩
  channel := hch

theorem answers_ignoreTruncated (p : Params) {i : Instr} {b : Block} (hi : DeliversReport i) (hb : b.phase = .streaming) :
    Answers p b i (ignoreTruncated p b) := by
  obtain ⟨-, h⟩ | ⟨-, hcap, h⟩ | ⟨-, -, h⟩ := ignoreTruncated_cases p b
  · rw [h]; exact answers_respond p i _ _ b
  · rw [h]; exact (Effect.truncatedCounted i hi hb hcap).respond _ _
  · rw [h]; exact (Effect.truncatedAtCap i hi hb).respond _ _

theorem answers_applyPacket (p : Params) {i : Instr} {len : Byte} {d : DecodedResponse} {b : Block} (hi : Carries i len d)
    (hb : b.phase = .streaming) (hlen : 6 ≤ len.toNat) : Answers p b i (applyPacket d b) := by
  obtain ⟨-, h⟩ | ⟨-, -, h⟩ | ⟨-, -, -, h⟩ | ⟨-, hcont, hcap, h⟩ := applyPacket_cases d b
  · rw [h]; exact (Effect.sensorTimedOut i len d hi hb).respond _ _
  · rw [h]; exact (Effect.terminated i len d hi hb).respond _ _
  · rw [h]; exact (Effect.consumedAtCap i len d hi hb hlen).respond _ _
  · rw [h]; exact (Effect.consumed i len d hi hb hlen hcont hcap).respond _ _

theorem answers_deliver (p : Params) {i : Instr} {len : Byte} {d : DecodedResponse} (b : Block) (hi : Carries i len d) :
    Answers p b i (deliver p len d b) := by
  obtain ⟨-, h⟩ | ⟨-, -, h⟩ | ⟨hb, -, h⟩ | ⟨hb, hlen, -, h⟩ := deliver_cases p len d b
  · rw [h]; exact answers_respond p i _ _ b
  · rw [h]; exact answers_respond p i _ _ b
  · rw [h]; exact answers_ignoreTruncated p hi.delivers hb
  · rw [h]; exact answers_applyPacket p hi hb hlen

theorem answers_deliverRow (p : Params) {i : Instr} {pk : Packet} {dt st : Byte} {chUpd : Option (BitVec 3)}
    (echo : Byte) (contUpd : Option Bool) (err : Option ErrCode) (b : Block) (hp : ∀ l r, i ≠ .pktIn l r)
    (he : ∀ g, ∃ echo', encode g i = encodePacket pk echo' dt st) (hch : LegalChannel chUpd) :
    Answers p b i (deliverRow p pk echo dt st contUpd err chUpd b) :=
  answers_deliver p b (carries_packet hp he (.inr rfl) hch)

theorem answers_deliverPlain (p : Params) {i : Instr} {pk : Packet} {dt st : Byte} {chUpd : Option (BitVec 3)}
    (echo : Byte) (contUpd : Option Bool) (err : Option ErrCode) (b : Block) (hp : ∀ l r, i ≠ .pktIn l r)
    (he : ∀ g, ∃ echo', encode g i = encodePacket pk echo' dt st) (hch : LegalChannel chUpd) :
    Answers p b i (deliverPlain p pk echo dt contUpd err chUpd b) :=
  answers_deliver p b (carries_packet hp he (.inl rfl) hch)

theorem answers_deliverTruncated (p : Params) {i : Instr} (b : Block) (hi : DeliversReport i) :
    Answers p b i (deliverTruncated p b) := by
  unfold deliverTruncated
  split_ifs with hb
  · exact answers_respond p i _ _ b
  · exact answers_ignoreTruncated p hi (not_not.mp hb)

/-! ### The sequencer and the registers -/

theorem inFlight_iff (b : Block) : inFlight b = true ↔ b.phase = .requesting ∨ b.phase = .streaming := by
  simp [inFlight]

theorem answers_execCapStart (ch : Byte) (s : State) :
    ∃ c, execCapStart ch s = .next { s with toBlock := c } ∧ Answers s.params s.toBlock (.capStart ch) c := by
  obtain ⟨-, h⟩ | ⟨-, -, h⟩ | ⟨-, -, -, e, -, h⟩ | ⟨hb, -, -, rep, hrep, h⟩ := execCapStart_cases ch s
  · exact ⟨_, h, answers_respond ..⟩
  · exact ⟨_, h, answers_respond ..⟩
  · exact ⟨_, h, answers_respond ..⟩
  · exact ⟨_, h, (Effect.started ch rep hb (buildCommand_length hrep)).respond _ _⟩

theorem answers_execSendAck (st : Byte) (s : State) :
    ∃ c, execSendAck st s = .next { s with toBlock := c } ∧ Answers s.params s.toBlock (.sendAck st) c := by
  refine ⟨_, rfl, ?_⟩
  simp only
  split_ifs with hb
  · exact answers_respond ..
  · exact answers_respond ..
  · exact (Effect.acknowledged st (not_not.mp hb)).respond _ _
  · exact (Effect.failed _ .transportError ((inFlight_iff _).mpr (.inl (not_not.mp hb))) (.inr (.inr rfl))).respond _ _

theorem answers_execRdTimeout (s : State) :
    ∃ c, execRdTimeout s = .next { s with toBlock := c } ∧ Answers s.params s.toBlock .rdTimeout c := by
  refine ⟨_, rfl, ?_⟩
  simp only
  split_ifs with hb
  · exact answers_respond ..
  · exact (Effect.failed _ .timedOut ((inFlight_iff _).mpr (.inr (not_not.mp hb))) (.inr (.inl rfl))).respond _ _

theorem answers_execXportErr (s : State) :
    ∃ c, execXportErr s = .next { s with toBlock := c } ∧ Answers s.params s.toBlock .xportErr c := by
  refine ⟨_, rfl, ?_⟩
  simp only
  split_ifs with hb
  · exact (Effect.failed _ .transportError hb (.inr (.inr rfl))).respond _ _
  · exact answers_respond ..

theorem answers_execCfgWrite (reg : Byte) (v : BitVec 32) (s : State) :
    ∃ c, execCfgWrite reg v s = .next { s with toBlock := c } ∧ Answers s.params s.toBlock (.cfgWrite reg v) c := by
  refine ⟨_, rfl, ?_⟩
  simp only
  split_ifs with hb
  · exact answers_respond ..
  · cases hc : configWrite reg v s.toBlock with
    | none => exact answers_respond ..
    | some c => exact (Effect.configured reg v c (Bool.eq_false_iff.mpr hb) hc).respond _ _

theorem answers_execStatusRead (reg : Byte) (s : State) :
    ∃ c, execStatusRead reg s = .next { s with toBlock := c } ∧ Answers s.params s.toBlock (.statusRead reg) c := by
  refine ⟨_, rfl, ?_⟩
  simp only
  split
  · exact answers_respond ..
  · split_ifs
    · exact answers_respond ..
    · exact answers_respond ..

/-- FRAME_READ answers a record, unless it stops at a cell that does not exist (log 16). -/
theorem answers_execFrameRead {row col : Byte} {s t : State} (h : execFrameRead row col s = .next t) :
    Answers s.params s.toBlock (.frameRead row col) t.toBlock := by
  unfold execFrameRead at h
  split_ifs at h
  · cases h; exact answers_respond ..
  · cases h; exact answers_respond ..
  · split at h
    · cases h; exact answers_respond ..
    · cases h

/-! ### Every instruction -/

/-- An instruction that always answers: what is said of the state it answers holds of `t`. -/
theorem toBlock_of_exec_next {P : Block → Prop} {i : Instr} {s t : State} (h : exec i s = .next t)
    (hc : ∃ c, exec i s = .next { s with toBlock := c } ∧ P c) : P t.toBlock := by
  obtain ⟨c, hc, hP⟩ := hc
  cases hc.symm.trans h
  exact hP

/-- Every instruction has one of the listed effects, and puts out a result. -/
theorem exec_answers {i : Instr} {s t : State} (h : exec i s = .next t) : Answers s.params s.toBlock i t.toBlock := by
  cases i with
  | encSimple | encFramed | encCmd => exact toBlock_of_exec_next h ⟨_, rfl, answers_respondReport ..⟩
  | chkValidate | illegalOp => exact toBlock_of_exec_next h ⟨_, rfl, answers_respond ..⟩
  | classify len r => exact toBlock_of_exec_next h (answers_execClassify len r s)
  | capStart ch => exact toBlock_of_exec_next h (answers_execCapStart ch s)
  | sendAck st => exact toBlock_of_exec_next h (answers_execSendAck st s)
  | pktIn len r => exact toBlock_of_exec_next h ⟨_, rfl, answers_deliver _ _ (carries_pktIn ..)⟩
  | rdTimeout => exact toBlock_of_exec_next h (answers_execRdTimeout s)
  | xportErr => exact toBlock_of_exec_next h (answers_execXportErr s)
  | abort => exact toBlock_of_exec_next h ⟨_, rfl, Effect.aborted.respond _ _⟩
  | cfgWrite reg v => exact toBlock_of_exec_next h (answers_execCfgWrite reg v s)
  | statusRead reg => exact toBlock_of_exec_next h (answers_execStatusRead reg s)
  | frameRead row col => exact answers_execFrameRead h
  | rptFramed | rptSimple => exact toBlock_of_exec_next h ⟨_, rfl, answers_emitBuilt ..⟩
  | inTruncated len r => exact toBlock_of_exec_next h ⟨_, rfl, answers_deliverTruncated _ _ (.inr ⟨0, len, r, rfl⟩)⟩
  | inGet03 | inGet03End | inGet03Sto | inStatus07End | inStatus07 | inStatus08End | inStatus08 | inStatus0BEnd
    | inStatus0B | inOther =>
    exact toBlock_of_exec_next h ⟨_, rfl, answers_deliverPlain _ _ _ _ _ nofun (fun _ => ⟨_, rfl⟩) (by decide)⟩
  | inGet01 | inGet01End | inGet01Sto | inGet02 | inGet02End | inGet02Sto | inGet12 | inGet12End | inGet12Sto
    | inGet22 | inGet22End | inGet22Sto | inGet32 | inGet32End | inGet32Sto | inRow01Retain | inRow02Retain
    | inRow12Retain | inRow22Retain | inRow32Retain =>
    exact toBlock_of_exec_next h ⟨_, rfl, answers_deliverRow _ _ _ _ _ nofun (fun _ => ⟨_, rfl⟩) (by decide)⟩


/-! ## Writers of the elements -/

theorem modeOf_legal {dt : Byte} {m : BitVec 5} (h : modeOf dt = some m) : m = 12 ∨ m = 24 := by
  unfold modeOf at h
  split_ifs at h <;> cases h <;> decide

/-- ConsumeRow's write of DIM: a latch of 12 or 24 where none is in force (43_sequencer.md R205). -/
theorem consumeRow_dim (d : DecodedResponse) (b : Block) :
    (consumeRow d b).dim = b.dim ∨ b.dim = 0 ∧ ((consumeRow d b).dim = 12 ∨ (consumeRow d b).dim = 24) := by
  have hlatch : ∀ m, modeOf d.dt = some m →
      (latchDim m b).dim = b.dim ∨ b.dim = 0 ∧ ((latchDim m b).dim = 12 ∨ (latchDim m b).dim = 24) := by
    intro m hm
    rw [latchDim_dim]
    split_ifs with h0
    · exact .inr ⟨h0, modeOf_legal hm⟩
    · exact .inl rfl
  obtain ⟨-, h⟩ | ⟨m, row, hm, -, ⟨-, -, h⟩ | ⟨-, h⟩⟩ := consumeRow_cases d b
  · exact .inl (by rw [h])
  · rw [h]; exact hlatch m hm
  · rw [h]; exact hlatch m hm

/-- ConsumeRow's write of FB: nothing, or the row of a packet whose mode and row byte fit (43_sequencer.md R206). -/
theorem consumeRow_fb (d : DecodedResponse) (b : Block) :
    (consumeRow d b).fb = b.fb ∨ ∃ m row, modeOf d.dt = some m ∧ d.row = some row ∧ row.toNat < m.toNat ∧
      (consumeRow d b).fb = b.fb.writeRow d.dt row d.samples := by
  obtain ⟨-, h⟩ | ⟨m, row, hm, hrow, ⟨-, hlt, h⟩ | ⟨-, h⟩⟩ := consumeRow_cases d b
  · exact .inl (by rw [h])
  · exact .inr ⟨m, row, hm, hrow, hlt, by rw [h]⟩
  · exact .inl (by rw [h, latchDim_fb])

section Writers

variable {p : Params} {b c : Block} {i : Instr}

theorem configWrite_keeps {reg : Byte} {v : BitVec 32} (h : configWrite reg v b = some c) :
    ∃ cap rtoMs gainMode intTimeMs,
      c = { b with cap := cap, rtoMs := rtoMs, gainMode := gainMode, intTimeMs := intTimeMs } := by
  obtain ⟨-, -, -, rfl⟩ | ⟨-, -, rfl⟩ | ⟨-, -, rfl⟩ | ⟨-, -, -, rfl⟩ := configWrite_cases h
  all_goals exact ⟨_, _, _, _, rfl⟩

theorem Effect.activeCh_eq (h : Effect p b i c) (hi : ¬ DeliversReport i) (hcl : ∀ len r, i ≠ .classify len r) :
    c.activeCh = b.activeCh := by
  cases h with
  | classified len r => exact absurd rfl (hcl len r)
  | configured reg v c hb hc => obtain ⟨_, _, _, _, rfl⟩ := configWrite_keeps hc; rfl
  | sensorTimedOut _ _ _ hd | terminated _ _ _ hd | consumedAtCap _ _ _ hd | consumed _ _ _ hd =>
    exact absurd hd.delivers hi
  | _ => rfl

/-- The configuration registers, together. -/
abbrev SameConfig (c b : Block) : Prop :=
  c.cap = b.cap ∧ c.rtoMs = b.rtoMs ∧ c.gainMode = b.gainMode ∧ c.intTimeMs = b.intTimeMs

theorem Effect.sameConfig (h : Effect p b i c) (hi : ∀ reg v, i ≠ .cfgWrite reg v) : SameConfig c b := by
  cases h with
  | configured reg v => exact absurd rfl (hi reg v)
  | consumedAtCap | consumed => simp [SameConfig]
  | _ => exact ⟨rfl, rfl, rfl, rfl⟩

/-- FB is written by CAP_START and by the ConsumeRow of a packet in STREAMING. -/
theorem Effect.fb_cases (h : Effect p b i c) (hi : ∀ ch, i ≠ .capStart ch) :
    c.fb = b.fb ∨ b.phase = .streaming ∧ ∃ len d, Carries i len d ∧ 6 ≤ len.toNat ∧
      c.fb = (consumeRow d (countPacket d b)).fb := by
  cases h with
  | started ch => exact absurd rfl (hi ch)
  | configured reg v c hb hc => obtain ⟨_, _, _, _, rfl⟩ := configWrite_keeps hc; exact .inl rfl
  | consumedAtCap _ len d hd hb hlen | consumed _ len d hd hb hlen => exact .inr ⟨hb, len, d, hd, hlen, rfl⟩
  | _ => exact .inl rfl

theorem Effect.tx_eq (h : Effect p b i c) (hi : ∀ ch, i ≠ .capStart ch) :
    c.tx = b.tx ∧ (c.txValid = true → b.txValid = true) := by
  cases h with
  | started ch => exact absurd rfl (hi ch)
  | configured reg v c hb hc => obtain ⟨_, _, _, _, rfl⟩ := configWrite_keeps hc; exact ⟨rfl, id⟩
  | acknowledged | failed | aborted | sensorTimedOut => exact ⟨rfl, nofun⟩
  | consumedAtCap | consumed => simp
  | _ => exact ⟨rfl, id⟩

theorem Effect.counters_eq (h : Effect p b i c) (hs : ∀ ch, i ≠ .capStart ch) (ha : i ≠ .abort)
    (hi : ¬ DeliversReport i ∨ b.phase ≠ .streaming) :
    c.cont = b.cont ∧ c.attempts = b.attempts ∧ c.dim = b.dim := by
  have hno : ¬ (DeliversReport i ∧ b.phase = .streaming) := fun ⟨hd, hb⟩ => hi.elim (· hd) (· hb)
  cases h with
  | started ch => exact absurd rfl (hs ch)
  | aborted => exact absurd rfl ha
  | configured reg v c hb hc => obtain ⟨_, _, _, _, rfl⟩ := configWrite_keeps hc; exact ⟨rfl, rfl, rfl⟩
  | truncatedCounted _ hd hb | truncatedAtCap _ hd hb => exact absurd ⟨hd, hb⟩ hno
  | sensorTimedOut _ _ _ hd hb | terminated _ _ _ hd hb | consumedAtCap _ _ _ hd hb | consumed _ _ _ hd hb =>
    exact absurd ⟨hd.delivers, hb⟩ hno
  | _ => exact ⟨rfl, rfl, rfl⟩

theorem Effect.dim_cases (h : Effect p b i c) (hs : ∀ ch, i ≠ .capStart ch) (ha : i ≠ .abort) :
    c.dim = b.dim ∨ b.dim = 0 ∧ (c.dim = 12 ∨ c.dim = 24) := by
  cases h with
  | started ch => exact absurd rfl (hs ch)
  | aborted => exact absurd rfl ha
  | configured reg v c hb hc => obtain ⟨_, _, _, _, rfl⟩ := configWrite_keeps hc; exact .inl rfl
  | consumedAtCap _ _ d | consumed _ _ d => exact consumeRow_dim d (countPacket d b)
  | _ => exact .inl rfl

theorem Effect.completion_cases (h : Effect p b i c) (hs : ∀ ch, i ≠ .capStart ch) (ha : i ≠ .abort) :
    (c.phase = .complete ∧ b.phase = .streaming) ∨ (c.frameMeta = b.frameMeta ∧ c.doneReason = b.doneReason) := by
  cases h with
  | started ch => exact absurd rfl (hs ch)
  | aborted => exact absurd rfl ha
  | configured reg v c hb hc => obtain ⟨_, _, _, _, rfl⟩ := configWrite_keeps hc; exact .inr ⟨rfl, rfl⟩
  | truncatedAtCap _ _ hb | terminated _ _ _ _ hb | consumedAtCap _ _ _ _ hb => exact .inl ⟨rfl, hb⟩
  | consumed => exact .inr (by simp)
  | _ => exact .inr ⟨rfl, rfl⟩

theorem Effect.err_cases (h : Effect p b i c) (hs : ∀ ch, i ≠ .capStart ch) (ha : i ≠ .abort) :
    c.err = b.err ∨ c.phase = .failed ∧ (b.phase = .requesting ∨ b.phase = .streaming) := by
  cases h with
  | started ch => exact absurd rfl (hs ch)
  | aborted => exact absurd rfl ha
  | configured reg v c hb hc => obtain ⟨_, _, _, _, rfl⟩ := configWrite_keeps hc; exact .inl rfl
  | failed _ _ hb => exact .inr ⟨rfl, (inFlight_iff b).mp hb⟩
  | sensorTimedOut _ _ _ _ hb => exact .inr ⟨rfl, .inr hb⟩
  | consumedAtCap | consumed => exact .inl (by simp)
  | _ => exact .inl rfl

end Writers

/-- Settles O54, from the effects an instruction can have. -/
theorem activeChannelWriters : Obligations.ActiveChannelWriters := by
  intro i s t h hi hcl
  obtain ⟨c, o, hc, ht⟩ := exec_answers h
  rw [ht]
  exact hc.activeCh_eq hi hcl

/-- Settles O55, from the effects an instruction can have. -/
theorem configurationWriters : Obligations.ConfigurationWriters := by
  intro i s t h hi
  obtain ⟨c, o, hc, ht⟩ := exec_answers h
  rw [ht]
  exact hc.sameConfig hi

/-- Settles O57, from the effects an instruction can have. -/
theorem transmitRegisterWriters : Obligations.TransmitRegisterWriters := by
  intro i s t h hi
  obtain ⟨c, o, hc, ht⟩ := exec_answers h
  rw [ht]
  exact hc.tx_eq hi

/-- Settles O58: one case analysis of the effects for each element. -/
theorem captureStateWriters : Obligations.CaptureStateWriters := by
  intro i s t h hs ha
  obtain ⟨c, o, hc, ht⟩ := exec_answers h
  rw [ht]
  have hdim := hc.dim_cases hs ha
  exact ⟨hc.counters_eq hs ha, fun h0 => hdim.resolve_right fun h => h0 h.1, hdim.imp_right And.right,
    hc.completion_cases hs ha, hc.err_cases hs ha⟩

theorem modeOf_eq_none {dt : Byte} (h : dt ∉ [0x01#8, 0x02, 0x12, 0x22, 0x32]) : modeOf dt = none := by
  simp only [List.mem_cons, List.not_mem_nil, or_false] at h
  obtain ⟨h12, h24⟩ := not_or.mp h
  exact (if_neg h12).trans (if_neg h24)

/-- ConsumeRow leaves every cell but the 12 of the packet's data_type and row byte, and all of them where the data_type
carries no row. -/
theorem consumeRow_frame {d : DecodedResponse} {row : Byte} (hrow : d.row = none ∨ d.row = some row) (b : Block) :
    (∀ a, (∀ k < 12, a ≠ pixelAddr d.dt row k) → (consumeRow d b).fb.read a = b.fb.read a) ∧
    (modeOf d.dt = none → (consumeRow d b).fb = b.fb) := by
  obtain h | ⟨m, row', hm, hrow', -, h⟩ := consumeRow_fb d b
  · exact ⟨fun a _ => by rw [h], fun _ => h⟩
  · obtain rfl : row' = row := by
      rw [hrow'] at hrow
      exact Option.some.inj (hrow.resolve_left nofun)
    exact ⟨fun a ha => by rw [h, FrameBuffer.writeRow_read_ne _ _ _ _ ha], fun hn => by cases hn.symm.trans hm⟩

/-- Settles O56: FB is written by ConsumeRow alone, and a delivered report's classification has its data_type and row
byte. -/
theorem frameBufferWriters : Obligations.FrameBufferWriters := by
  intro i s t h hi
  obtain ⟨c, o, hc, ht⟩ := exec_answers h
  rw [ht]
  obtain hfb | ⟨hb, len', d, hd, hlen', hfb⟩ := hc.fb_cases hi
  · exact ⟨fun _ => hfb, fun g len r _ => ⟨fun a _ => congrArg (·.read a) hfb, fun _ => hfb⟩⟩
  · refine ⟨fun hno => absurd hb (hno.resolve_left (not_not.mpr hd.delivers)), fun g len r hr => ?_⟩
    obtain ⟨rfl, hdt, hrow⟩ := hd.report g len r hr
    obtain ⟨hcells, hnone⟩ := consumeRow_frame hrow (countPacket d s.toBlock)
    rw [← hdt, ← hfb] at hcells
    rw [← hdt, ← hfb] at hnone
    exact ⟨hcells, fun hno => hnone (modeOf_eq_none (hno.resolve_right (by omega)))⟩

/-! ## The invariant (10_state.md R42) -/

/-- The invariant does not speak of the pending events, the result put out, or the draw counter. -/
theorem Inv.of_output {s : State} (h : Inv s) (inputs : List Input) (o : Option Output) (n : Nat) :
    Inv { s with inputs := inputs, output := o, draws := n } := { h with }

/-- Every value RESET leaves is one the invariant allows, whatever the draw and the pending events (70_reset_and_hazards.md
R271). -/
theorem inv_reset (p : Params) (n : Nat) (inputs : List Input) :
    Inv ⟨{ Block.reset n with inputs := inputs }, p⟩ := by
  constructor <;>
    simp [Block.reset, inFlight, LegalChannel, LegalIntTime, Config.capDefault, Config.readTimeoutDefault,
      Config.reportBytes, FrameBuffer.wf, cellsWf]

/-- Settles O9: power-up is the reset with draw 0 and nothing pending. -/
theorem resetSatisfiesInvariant : Obligations.ResetSatisfiesInvariant := inv_reset Config.params 0 []

/-- Settles O12: the three tables, entry by entry. -/
theorem codesAreTheSpecs : Obligations.CodesAreTheSpecs := ⟨rfl, rfl, rfl⟩

/-- What the invariant says of a capture in flight beside STATE, TX_VALID, CONT and ATTEMPTS. It holds while a packet is
being processed, when the invariant itself need not. -/
structure Capturing (p : Params) (b : Block) : Prop where
  noErr : b.err = .none
  notDone : b.doneReason = .none
  noMeta : b.frameMeta = none
  dimLegal : b.dim = 0 ∨ b.dim = 12 ∨ b.dim = 24
  capLegal : 1 ≤ b.cap.toNat
  rtoLegal : b.rtoMs ≠ 0
  channelLegal : LegalChannel b.activeCh
  intTimeLegal : LegalIntTime b.intTimeMs
  fbCanonical : b.fb.wf = true
  fbFilled : b.fb.base = .filled p.fill
  txWidth : b.tx.length = Config.reportBytes

section Capture

variable {p : Params} {b c : Block}

theorem legalChannel_or {u v : Option (BitVec 3)} (hu : LegalChannel u) (hv : LegalChannel v) : LegalChannel (u.or v) := by
  cases u with
  | none => exact hv
  | some x => exact hu

theorem Inv.capturing (h : Inv ⟨b, p⟩) (hb : inFlight b = true) : Capturing p b := by
  obtain ⟨hfailed, hcomplete, hidle⟩ : b.phase ≠ .failed ∧ b.phase ≠ .complete ∧ b.phase ≠ .idle := by
    obtain hp | hp := (inFlight_iff b).mp hb <;> simp [hp]
  exact { h with
    noErr := not_not.mp fun he => hfailed (h.failedIffErr.mpr he)
    notDone := not_not.mp fun he => hcomplete (h.completeIffDone.mpr he)
    noMeta := not_not.mp fun he => hcomplete (h.completeIffMeta.mpr he)
    fbFilled := h.fbFilled hidle }

theorem Inv.of_streaming (h : Inv ⟨b, p⟩) (hb : b.phase = .streaming) :
    Capturing p b ∧ b.txValid = false ∧ b.cont = true := by
  have hin := (inFlight_iff b).mpr (.inr hb)
  refine ⟨h.capturing hin, Bool.eq_false_iff.mpr fun htx => ?_, h.contInFlight hin⟩
  cases hb.symm.trans (h.requestingIffTxValid.mpr htx)

/-! ### What the parts of a packet's processing keep -/

theorem Capturing.countPacket {d : DecodedResponse} (h : Capturing p b) (hd : LegalChannel d.chUpd) :
    Capturing p (countPacket d b) :=
  { h with channelLegal := legalChannel_or hd h.channelLegal }

theorem Capturing.consumeRow (h : Capturing p b) (d : DecodedResponse) : Capturing p (consumeRow d b) := by
  have hdim : (Machine.consumeRow d b).dim = 0 ∨ (Machine.consumeRow d b).dim = 12 ∨ (Machine.consumeRow d b).dim = 24 := by
    obtain he | ⟨-, hm⟩ := consumeRow_dim d b
    · rw [he]; exact h.dimLegal
    · exact .inr hm
  have hfb : (Machine.consumeRow d b).fb.wf = true ∧ (Machine.consumeRow d b).fb.base = .filled p.fill := by
    obtain he | ⟨m, row, hm, -, hlt, he⟩ := consumeRow_fb d b
    · rw [he]; exact ⟨h.fbCanonical, h.fbFilled⟩
    · obtain ⟨hwf, hbase, -, -⟩ := FrameBuffer.writeRow_spec h.fbCanonical hm hlt d.samples
      rw [he]; exact ⟨hwf, hbase.trans h.fbFilled⟩
  obtain ⟨dim, fb, he⟩ := consumeRow_form d b
  rw [he] at hdim hfb ⊢
  exact { h with dimLegal := hdim, fbCanonical := hfb.1, fbFilled := hfb.2 }

theorem capturing_startCapture (h : Inv ⟨b, p⟩) {rep : Report} (hrep : rep.length = Config.reportBytes) :
    Capturing p (startCapture p rep b) :=
  { h with noErr := rfl, notDone := rfl, noMeta := rfl, dimLegal := .inl rfl, fbCanonical := rfl, fbFilled := rfl,
           txWidth := hrep }

/-! ### The states a capture goes through -/

theorem Capturing.inv_requesting (h : Capturing p b) (hphase : b.phase = .requesting) (htx : b.txValid = true)
    (hcont : b.cont = true) (hatt : b.attempts = 0) (hdim : b.dim = 0) : Inv ⟨b, p⟩ := by
  refine { h with
    fbFilled := fun _ => h.fbFilled, streamingBelowCap := ?_, failedIffErr := ?_, completeIffDone := ?_,
    completeIffMeta := ?_, requestingIffTxValid := ?_, noDimYet := ?_, errLegal := ?_, metaLegal := ?_,
    contInFlight := ?_, noAttemptsYet := ?_ }
  all_goals simp [hphase, htx, hcont, hatt, hdim, h.noErr, h.notDone, h.noMeta]

theorem Capturing.inv_streaming (h : Capturing p b) (hphase : b.phase = .streaming) (htx : b.txValid = false)
    (hcont : b.cont = true) (hatt : b.attempts.toNat < b.cap.toNat) : Inv ⟨b, p⟩ := by
  refine { h with
    fbFilled := fun _ => h.fbFilled, streamingBelowCap := fun _ => hatt, failedIffErr := ?_, completeIffDone := ?_,
    completeIffMeta := ?_, requestingIffTxValid := ?_, noDimYet := ?_, errLegal := ?_, metaLegal := ?_,
    contInFlight := ?_, noAttemptsYet := ?_ }
  all_goals simp [hphase, htx, hcont, h.noErr, h.notDone, h.noMeta]

/-- The metadata of a completion are the GAIN_MODE, INT_TIME_MS and ACTIVE_CH of its moment, whose ranges hold. -/
theorem Capturing.inv_completeCapture (h : Capturing p b) (htx : b.txValid = false) {reason : DoneReason}
    (hr : reason ≠ .none) : Inv ⟨completeCapture reason b, p⟩ := by
  refine { h with
    fbFilled := fun _ => h.fbFilled, metaLegal := by rintro _ ⟨⟩; exact ⟨h.intTimeLegal, h.channelLegal⟩,
    streamingBelowCap := ?_, failedIffErr := ?_, completeIffDone := ?_, completeIffMeta := ?_,
    requestingIffTxValid := ?_, noDimYet := ?_, errLegal := ?_, contInFlight := ?_, noAttemptsYet := ?_ }
  all_goals simp [inFlight, htx, hr, h.noErr]

theorem Capturing.inv_failCapture (h : Capturing p b) {cause : ErrCode} (hcause : FailureCause cause) :
    Inv ⟨failCapture cause b, p⟩ := by
  have hne : cause ≠ .none := by obtain rfl | rfl | rfl := hcause <;> decide
  refine { h with
    fbFilled := fun _ => h.fbFilled, errLegal := .inr hcause, streamingBelowCap := ?_, failedIffErr := ?_,
    completeIffDone := ?_, completeIffMeta := ?_, requestingIffTxValid := ?_, noDimYet := ?_, metaLegal := ?_,
    contInFlight := ?_, noAttemptsYet := ?_ }
  all_goals simp [inFlight, hne, h.notDone, h.noMeta]

theorem inv_returnToIdle (h : Inv ⟨b, p⟩) : Inv ⟨returnToIdle b, p⟩ := by
  refine { h with
    dimLegal := .inl rfl, errLegal := .inl rfl, noDimYet := fun _ => rfl, noAttemptsYet := fun _ => rfl,
    fbFilled := absurd rfl, streamingBelowCap := ?_, failedIffErr := ?_, completeIffDone := ?_, completeIffMeta := ?_,
    requestingIffTxValid := ?_, metaLegal := ?_, contInFlight := ?_ }
  all_goals simp [inFlight]

/-- CFG_WRITE keeps the ranges; a new CAP cannot fall behind ATTEMPTS because no capture is in flight (43_sequencer.md
R213). -/
theorem inv_configWrite {reg : Byte} {v : BitVec 32} (h : Inv ⟨b, p⟩) (hb : inFlight b = false)
    (hc : configWrite reg v b = some c) : Inv ⟨c, p⟩ := by
  have hphase : b.phase ≠ .streaming := fun he => by simp [inFlight, he] at hb
  obtain ⟨-, h1, h255, rfl⟩ | ⟨-, hne, rfl⟩ | ⟨-, -, rfl⟩ | ⟨-, h1, hmax, rfl⟩ := configWrite_cases hc
  · exact { h with
      streamingBelowCap := fun he => absurd he hphase
      capLegal := by simp; omega }
  · exact { h with rtoLegal := hne }
  · exact { h with }
  · refine { h with intTimeLegal := ?_ }
    rintro _ ⟨⟩
    simp only [BitVec.toNat_setWidth, Config.integrationTimeMax]
    omega

end Capture

/-- Every effect an instruction can have keeps the invariant. -/
theorem Effect.keeps_inv {p : Params} {b c : Block} {i : Instr} (hc : Effect p b i c) (h : Inv ⟨b, p⟩) : Inv ⟨c, p⟩ := by
  have hnext : b.attempts.toNat + 1 < b.cap.toNat → (b.attempts + 1).toNat < b.cap.toNat := by bv_omega
  cases hc with
  | unchanged => exact h
  | classified len r u hu => exact { h with channelLegal := legalChannel_or hu h.channelLegal }
  | started ch rep hb hrep => exact (capturing_startCapture h hrep).inv_requesting rfl rfl rfl rfl rfl
  | acknowledged st hb =>
    have hin := (inFlight_iff b).mpr (.inl hb)
    have hatt : b.attempts.toNat < b.cap.toNat := by
      rw [show b.attempts = 0 from h.noAttemptsYet (.inr hb)]
      exact h.capLegal
    exact Capturing.inv_streaming { h.capturing hin with } rfl rfl (h.contInFlight hin) hatt
  | failed _ cause hb hcause => exact (h.capturing hb).inv_failCapture hcause
  | aborted => exact inv_returnToIdle h
  | configured reg v c hb hc => exact inv_configWrite h hb hc
  | truncatedCounted _ _ hb hcap =>
    obtain ⟨hcapt, htx, hcont⟩ := h.of_streaming hb
    exact Capturing.inv_streaming { hcapt with } hb htx hcont (hnext hcap)
  | truncatedAtCap _ _ hb =>
    obtain ⟨hcapt, htx, -⟩ := h.of_streaming hb
    exact Capturing.inv_completeCapture (b := countAttempt b) { hcapt with } htx nofun
  | sensorTimedOut _ _ d hd hb =>
    obtain ⟨hcapt, -, -⟩ := h.of_streaming hb
    exact (hcapt.countPacket hd.channel).inv_failCapture (.inl rfl)
  | terminated _ _ d hd hb =>
    obtain ⟨hcapt, htx, -⟩ := h.of_streaming hb
    exact (hcapt.countPacket hd.channel).inv_completeCapture htx nofun
  | consumedAtCap _ _ d hd hb =>
    obtain ⟨hcapt, htx, -⟩ := h.of_streaming hb
    exact ((hcapt.countPacket hd.channel).consumeRow d).inv_completeCapture (by simpa using htx) nofun
  | consumed _ _ d hd hb _ hcont hcap =>
    obtain ⟨hcapt, htx, -⟩ := h.of_streaming hb
    exact ((hcapt.countPacket hd.channel).consumeRow d).inv_streaming (by simpa using hb) (by simpa using htx)
      (by simpa using hcont) (by simpa using hnext hcap)

theorem exec_keeps_inv {i : Instr} {s t : State} (h : exec i s = .next t) (hs : Inv s) : Inv t := by
  obtain ⟨c, o, hc, ht⟩ := exec_answers h
  have ht' : t = ⟨{ c with output := o }, s.params⟩ := by rw [← ht, ← exec_keeps_params h]
  rw [ht']
  exact (hc.keeps_inv hs).of_output c.inputs o c.draws

/-- Settles O10: RESET sets the reset values, rejected bytes write no element of the invariant, and every instruction's
effect keeps it. -/
theorem stepKeepsInvariant : Obligations.StepKeepsInvariant := by
  intro s t hs h
  obtain ⟨-, h'⟩ | ⟨inp, rest, -, ⟨-, h'⟩ | ⟨i, -, h'⟩ | ⟨e, -, h'⟩⟩ := step_cases s
  · cases h'.symm.trans h
    exact hs
  · cases h'.symm.trans h
    exact inv_reset s.params s.draws rest
  · exact exec_keeps_inv (h'.symm.trans h) (hs.of_output rest s.output s.draws)
  · cases h'.symm.trans h
    obtain ⟨o, n, he⟩ := reject_form e { s.toBlock with inputs := rest }
    have ht : State.operate { s with inputs := rest } (fun _ b => reject e b) =
        { s with inputs := rest, output := o, draws := n } := congrArg (State.mk · s.params) he
    rw [ht]
    exact hs.of_output rest o n

/-! ## The read of TX (10_state.md R36) -/

/-- What the validator has checked of a report it accepts, for the payload's length `n` (40_framer.md R121). -/
theorem validate_ok {r : Report} (h : validate r = .ok) :
    ∃ n, (byteAt r 2).toNat = n + 1 ∧ n ≤ 57 ∧ byteAt r 0 = Config.preamble ∧
      byteAt r (4 + n) = chk (slice r 1 (n + 3)) ∧ byteAt r (5 + n) = Config.sentinel ∧
      byteAt r (6 + n) = Config.sentinel := by
  simp only [validate] at h
  split_ifs at h with hpre hlen hchk hsent
  obtain ⟨hs1, hs2⟩ := not_or.mp hsent
  exact ⟨_, by omega, by omega, not_not.mp hpre, not_not.mp hchk, not_not.mp hs1, not_not.mp hs2⟩

/-- The bytes after a framed report's header, cut at the payload's end: checksum, two sentinels, pad. -/
theorem eq_payload_append_trailer {rest : List Byte} {n : Nat} (hn : n ≤ 57) (hlen : rest.length = 60)
    (hpad : ∀ x ∈ rest.drop (n + 3), x = 0) :
    rest = rest.take n ++ [byteAt rest n, byteAt rest (n + 1), byteAt rest (n + 2)] ++ List.replicate (57 - n) 0 := by
  have htail : rest.drop (n + 3) = List.replicate (57 - n) 0 :=
    List.eq_replicate_iff.mpr ⟨by rw [List.length_drop]; omega, hpad⟩
  have hbyte : ∀ k (hk : k < rest.length), byteAt rest k = rest[k] := fun k hk => List.getD_eq_getElem _ _ hk
  calc rest = rest.take n ++ rest.drop n := (List.take_append_drop n rest).symm
    _ = _ := by
      rw [List.drop_eq_getElem_cons (by omega), List.drop_eq_getElem_cons (by omega),
        List.drop_eq_getElem_cons (by omega), htail, hbyte n (by omega), hbyte (n + 1) (by omega),
        hbyte (n + 2) (by omega)]
      simp

/-- A report that the validator accepts, with zero pad, is the framed report of its command, data_type and payload. -/
theorem framedReport_of_validate {r : Report} (hlen : r.length = Config.reportBytes) (hv : validate r = .ok)
    (hpad : padIsZero r = true) :
    (payloadOf r).length ≤ Config.maxFramedPayload ∧ framedReport (byteAt r 1) (byteAt r 3) (payloadOf r) = r := by
  obtain ⟨n, hn, h57, hpre, hchk, hs1, hs2⟩ := validate_ok hv
  match r, hlen with
  | r0 :: r1 :: r2 :: r3 :: rest, hlen =>
    have hrest : rest.length = 60 := by simpa [Config.reportBytes] using hlen
    replace hn : r2.toNat = n + 1 := hn
    replace hpre : r0 = Config.preamble := hpre
    have hpayload : payloadOf (r0 :: r1 :: r2 :: r3 :: rest) = rest.take n := by
      change rest.take (r2.toNat - 1) = _
      rw [hn, Nat.add_sub_cancel]
    have htake : (rest.take n).length = n := by rw [List.length_take]; omega
    have hr2 : BitVec.ofNat 8 (n + 1) = r2 := by rw [← hn, BitVec.ofNat_toNat, BitVec.setWidth_eq]
    have hbody : framedBody r1 r3 (rest.take n) = slice (r0 :: r1 :: r2 :: r3 :: rest) 1 (n + 3) := by
      rw [framedBody, htake, hr2]; rfl
    have hzero : ∀ x ∈ rest.drop (n + 3), x = 0 := by
      simpa [padIsZero, byteAt, hn, show 6 + (n + 1) = n + 3 + 4 by omega] using hpad
    have hat : ∀ k, byteAt (r0 :: r1 :: r2 :: r3 :: rest) (k + 4) = byteAt rest k := fun _ => rfl
    rw [show 4 + n = n + 4 by omega, hat] at hchk
    rw [show 5 + n = n + 1 + 4 by omega, hat] at hs1
    rw [show 6 + n = n + 2 + 4 by omega, hat] at hs2
    refine ⟨by rw [hpayload, htake]; exact h57, ?_⟩
    change framedReport r1 r3 _ = _
    rw [hpayload, framedReport, hbody, ← hchk, ← hbody, framedBody, htake, hr2, hpre]
    conv_rhs => rw [eq_payload_append_trailer h57 hrest hzero, hs1, hs2]
    simp [Config.maxFramedPayload]

theorem simpleReport_of_length {r : Report} (hlen : r.length = Config.reportBytes) :
    (r.drop 1).length ≤ Config.maxSimpleParams ∧ simpleReport (byteAt r 0) (r.drop 1) = r := by
  match r, hlen with
  | r0 :: rest, hlen =>
    have hrest : rest.length = Config.maxSimpleParams := by simpa [Config.reportBytes, Config.maxSimpleParams] using hlen
    exact ⟨hrest.le, by simp [simpleReport, byteAt, hrest]⟩

theorem exec_rptFramed_of_report {s : State} {cmd dt : Byte} {payload : List Byte} {r : Report}
    (hp : s.params.protocol = .framed) (hlen : payload.length ≤ Config.maxFramedPayload)
    (hr : framedReport cmd dt payload = r) :
    exec (.rptFramed cmd dt payload) s = .next { s with output := some (.report r) } := by
  have hbuild : buildFramed s.params cmd dt payload = .ok r := by
    rw [buildFramed, if_neg (not_not.mpr hp), if_neg (Nat.not_lt.mpr hlen), hr]
  simp only [exec, execRptFramed, State.operate, hbuild, emitBuilt, emit]

theorem exec_rptSimple_of_report {s : State} {opcode : Byte} {args : List Byte} {r : Report}
    (hp : s.params.protocol = .simple) (hlen : args.length ≤ Config.maxSimpleParams)
    (hr : simpleReport opcode args = r) :
    exec (.rptSimple opcode args) s = .next { s with output := some (.report r) } := by
  have hbuild : buildSimple s.params opcode args = .ok r := by
    rw [buildSimple, if_neg (not_not.mpr hp), if_neg (Nat.not_lt.mpr hlen), hr]
  simp only [exec, execRptSimple, State.operate, hbuild, emitBuilt, emit]

/-- Whatever 64 outbound bytes are read as, running it puts the same bytes out: the framer's layout is built back from a
report that has it, and any other report is answered as it stands. -/
theorem decodeOutbound_cases (s : State) {r : Report} (hlen : r.length = Config.reportBytes) :
    (∃ i, decodeOutbound s.params.protocol r = .instr i ∧ exec i s = .next { s with output := some (.report r) }) ∨
    decodeOutbound s.params.protocol r = .rejected (.notReport r) := by
  unfold decodeOutbound
  split
  · next hp =>
    split_ifs with h
    · obtain ⟨-, hv, hpad⟩ := h
      obtain ⟨hpl, hr⟩ := framedReport_of_validate hlen hv hpad
      exact .inl ⟨_, rfl, exec_rptFramed_of_report hp hpl hr⟩
    · exact .inr rfl
  · next hp =>
    obtain ⟨hpl, hr⟩ := simpleReport_of_length hlen
    rw [if_pos hlen]
    exact .inl ⟨_, rfl, exec_rptSimple_of_report hp hpl hr⟩

/-- An event that is no instruction is answered by `reject`, and is taken. -/
theorem step_eq_reject_of_fetch {s : State} {inp : Input} {rest : List Input} {e : DecodeError}
    (hin : s.inputs = inp :: rest) (hf : fetch s.params s.toBlock inp = some (.rejected e)) :
    step s = .next ({ s with inputs := rest }.operate fun _ b => reject e b) := by
  simp only [step, hin, hf]

/-- Settles O20: in both readings of TX the bytes put out are TX's. -/
theorem txReadGivesTx : Obligations.TxReadGivesTx := by
  intro s rest hin hv hlen
  have hf : fetch s.params s.toBlock .txRead = some (decodeOutbound s.params.protocol s.tx) :=
    fetch_txRead_of_txValid s.params hv
  obtain ⟨i, hd, hi⟩ | hd := decodeOutbound_cases { s with inputs := rest } hlen
  · rw [step_eq_exec_of_fetch hin (hf.trans (congrArg some hd)), hi]
  · rw [step_eq_reject_of_fetch hin (hf.trans (congrArg some hd))]
    rfl

end Sys2Proof.Machine
end

section
/-! PROOF. 20_memory.md: the frame is visible only in COMPLETE (R74). -/

namespace Sys2Proof.Machine

/-! ## Operations that do not look at FB

Two states that differ in FB alone are `b` and `{ b with fb := fb }`. An operation ignores FB if it takes two such states to
two such states; the lemmas below follow the way operations are put together. -/

/-- From states that differ in FB alone the operation answers states that differ in FB alone. -/
def IgnoresFb (f : Block → Block) : Prop := ∀ b fb, ∃ fb', f { b with fb := fb } = { f b with fb := fb' }

/-- What is read of the state is read from elements other than FB. -/
def ReadsNoFb {α : Type} (d : Block → α) : Prop := ∀ b fb, d { b with fb := fb } = d b

section Calculus

variable {f g : Block → Block}

theorem ignoresFb_id : IgnoresFb fun b => b := fun _ fb => ⟨fb, rfl⟩

theorem IgnoresFb.comp (hf : IgnoresFb f) (hg : IgnoresFb g) : IgnoresFb fun b => f (g b) := by
  intro b fb
  obtain ⟨fb₁, h₁⟩ := hg b fb
  obtain ⟨fb₂, h₂⟩ := hf (g b) fb₁
  exact ⟨fb₂, (congrArg f h₁).trans h₂⟩

theorem IgnoresFb.ite {c : Block → Prop} [DecidablePred c] (hc : ReadsNoFb c) (hf : IgnoresFb f) (hg : IgnoresFb g) :
    IgnoresFb fun b => if c b then f b else g b := by
  intro b fb
  simp only [hc b fb]
  split_ifs
  · exact hf b fb
  · exact hg b fb

/-- An operation that is chosen by what it reads of the state. -/
theorem IgnoresFb.of_reads {α : Type} {d : Block → α} {F : α → Block → Block} (hd : ReadsNoFb d)
    (hF : ∀ a, IgnoresFb (F a)) : IgnoresFb fun b => F (d b) b := by
  intro b fb
  simp only [hd b fb]
  exact hF (d b) b fb

end Calculus

/-! ### The operations on the state -/

theorem ignoresFb_respond (port : Port) (bytes : List Byte) : IgnoresFb (respond port bytes) := fun _ fb => ⟨fb, rfl⟩

theorem ignoresFb_emit (r : Report) : IgnoresFb (emit r) := fun _ fb => ⟨fb, rfl⟩

theorem ignoresFb_returnState (port : Port) : IgnoresFb (returnState port) := fun _ fb => ⟨fb, rfl⟩

theorem ignoresFb_raiseWithState (port : Port) (e : ErrCode) : IgnoresFb (raiseWithState port e) := fun _ fb => ⟨fb, rfl⟩

theorem ignoresFb_failCapture (cause : ErrCode) : IgnoresFb (failCapture cause) := fun _ fb => ⟨fb, rfl⟩

theorem ignoresFb_returnToIdle : IgnoresFb returnToIdle := fun _ fb => ⟨fb, rfl⟩

theorem ignoresFb_completeCapture (reason : DoneReason) : IgnoresFb (completeCapture reason) := fun _ fb => ⟨fb, rfl⟩

theorem ignoresFb_startCapture (p : Params) (rep : Report) : IgnoresFb (startCapture p rep) := fun _ _ => ⟨_, rfl⟩

theorem ignoresFb_countAttempt : IgnoresFb countAttempt := fun _ fb => ⟨fb, rfl⟩

theorem ignoresFb_countPacket (d : DecodedResponse) : IgnoresFb (countPacket d) := fun _ fb => ⟨fb, rfl⟩

theorem ignoresFb_latchDim (m : BitVec 5) : IgnoresFb (latchDim m) :=
  .ite (fun _ _ => rfl) (fun _ fb => ⟨fb, rfl⟩) ignoresFb_id

/-- ConsumeRow writes FB, but what it does to DIM, and whether it writes, are decided without FB (43_sequencer.md R203). -/
theorem ignoresFb_consumeRow (d : DecodedResponse) : IgnoresFb (consumeRow d) := by
  unfold consumeRow
  split
  · next m row _ _ =>
    have hwrite : IgnoresFb fun t => { t with fb := t.fb.writeRow d.dt row d.samples } := fun _ _ => ⟨_, rfl⟩
    have hrow : IgnoresFb fun t => if m ≠ t.dim then t else if t.dim.toNat ≤ row.toNat then t
        else { t with fb := t.fb.writeRow d.dt row d.samples } :=
      .ite (fun _ _ => rfl) ignoresFb_id (.ite (fun _ _ => rfl) ignoresFb_id hwrite)
    exact hrow.comp (ignoresFb_latchDim m)
  · exact ignoresFb_id

/-! ### One packet -/

theorem ignoresFb_ignoreTruncated (p : Params) : IgnoresFb (ignoreTruncated p) :=
  have hcount : IgnoresFb fun b =>
      if nextReachesCap b = true then completeCapture .cap (countAttempt b) else countAttempt b :=
    .ite (fun _ _ => rfl) ((ignoresFb_completeCapture _).comp ignoresFb_countAttempt) ignoresFb_countAttempt
  .ite (fun _ _ => rfl) ((ignoresFb_raiseWithState _ _).comp hcount) (ignoresFb_raiseWithState _ _)

theorem ignoresFb_applyPacket (d : DecodedResponse) : IgnoresFb (applyPacket d) :=
  have hcount := ignoresFb_countPacket d
  have hreturn := ignoresFb_returnState .transport
  have hconsume := (ignoresFb_consumeRow d).comp hcount
  .ite (fun _ _ => rfl) ((ignoresFb_raiseWithState _ _).comp ((ignoresFb_failCapture _).comp hcount)) <|
    .ite (fun _ _ => rfl)
      (.ite (fun _ _ => rfl) (hreturn.comp ((ignoresFb_completeCapture _).comp hconsume)) (hreturn.comp hconsume))
      (hreturn.comp ((ignoresFb_completeCapture _).comp hcount))

theorem ignoresFb_deliver (p : Params) (len : Byte) (d : DecodedResponse) : IgnoresFb (deliver p len d) :=
  .ite (fun _ _ => rfl) (ignoresFb_raiseWithState _ _) <|
    .ite (fun _ _ => rfl) (ignoresFb_raiseWithState _ _) <|
      .ite (fun _ _ => rfl) (ignoresFb_ignoreTruncated p) (ignoresFb_applyPacket d)

/-- The samples of a row are drawn by the draw counter, not by FB (log 5). -/
theorem ignoresFb_deliverRow (p : Params) (pk : Packet) (echo dt st : Byte) (contUpd : Option Bool) (err : Option ErrCode)
    (chUpd : Option (BitVec 3)) : IgnoresFb (deliverRow p pk echo dt st contUpd err chUpd) :=
  .of_reads (d := fun b => rowResponse p b.draws pk.len pk.body echo dt st contUpd err chUpd) (fun _ _ => rfl)
    (ignoresFb_deliver p pk.len)

theorem ignoresFb_deliverTruncated (p : Params) : IgnoresFb (deliverTruncated p) :=
  .ite (fun _ _ => rfl) (ignoresFb_raiseWithState _ _) (ignoresFb_ignoreTruncated p)

/-! ### The framer and the registers -/

theorem ignoresFb_respondReport (r : Except ErrCode Report) : IgnoresFb (respondReport r) := by
  cases r with
  | ok rep => exact ignoresFb_respond _ _
  | error e => exact ignoresFb_respond _ _

theorem ignoresFb_emitBuilt (r : Except ErrCode Report) : IgnoresFb (emitBuilt r) := by
  cases r with
  | ok rep => exact ignoresFb_emit rep
  | error e => exact ignoresFb_respond _ _

theorem readsNoFb_regWord (reg : Byte) : ReadsNoFb (regWord reg) := fun _ _ => rfl

theorem configWrite_setFb (reg : Byte) (v : BitVec 32) (b : Block) (fb : FrameBuffer) :
    configWrite reg v { b with fb := fb } = (configWrite reg v b).map fun c => { c with fb := fb } := by
  unfold configWrite
  split_ifs <;> rfl

/-! ## Every instruction but FRAME_READ -/

/-- An instruction whose meaning is one operation (00_scope.md R8), one that ignores FB. -/
def OperatesIgnoringFb (e : State → Host.Outcome State Fault Refusal) : Prop :=
  ∃ f, (∀ s, e s = .next (s.operate f)) ∧ ∀ p, IgnoresFb (f p)

theorem operatesIgnoringFb_execClassify (len : Byte) (r : Report) : OperatesIgnoringFb (execClassify len r) := by
  have hone : ∀ p, IgnoresFb (classifyOne p len r) := fun _ _ fb => ⟨fb, rfl⟩
  exact ⟨_, fun _ => rfl, fun p => .ite (fun _ _ => rfl) (ignoresFb_respond _ _) <|
    .ite (fun _ _ => rfl) (ignoresFb_respond _ _) (hone p)⟩

theorem operatesIgnoringFb_execCapStart (ch : Byte) : OperatesIgnoringFb (execCapStart ch) := by
  refine ⟨_, fun _ => rfl, fun p => .ite (fun _ _ => rfl) (ignoresFb_respond _ _) <|
    .ite (fun _ _ => rfl) (ignoresFb_respond _ _) ?_⟩
  cases buildCommand p 3 (ch.setWidth 24) with
  | error e => exact ignoresFb_respond _ _
  | ok rep => exact (ignoresFb_respond _ _).comp (ignoresFb_startCapture p rep)

theorem operatesIgnoringFb_execSendAck (st : Byte) : OperatesIgnoringFb (execSendAck st) := by
  have hack : IgnoresFb fun b => returnState .transport { b with txValid := false, phase := .streaming } :=
    fun _ fb => ⟨fb, rfl⟩
  have hfail : IgnoresFb fun b => returnState .transport (failCapture .transportError { b with txValid := false }) :=
    fun _ fb => ⟨fb, rfl⟩
  exact ⟨_, fun _ => rfl, fun _ => .ite (fun _ _ => rfl) (ignoresFb_raiseWithState _ _) <|
    .ite (fun _ _ => rfl) (ignoresFb_raiseWithState _ _) (.ite (fun _ _ => rfl) hack hfail)⟩

/-- The classification of a packet reads the draw counter, not FB (log 5). -/
theorem operatesIgnoringFb_execPktIn (len : Byte) (r : Report) : OperatesIgnoringFb (execPktIn len r) :=
  ⟨_, fun _ => rfl, fun p => .of_reads (d := fun b => classifyReport p b.draws len r) (fun _ _ => rfl)
    (ignoresFb_deliver p len)⟩

theorem operatesIgnoringFb_execRdTimeout : OperatesIgnoringFb execRdTimeout :=
  ⟨_, fun _ => rfl, fun _ => .ite (fun _ _ => rfl) (ignoresFb_raiseWithState _ _)
    ((ignoresFb_returnState _).comp (ignoresFb_failCapture _))⟩

theorem operatesIgnoringFb_execXportErr : OperatesIgnoringFb execXportErr :=
  ⟨_, fun _ => rfl, fun _ => .ite (fun _ _ => rfl) ((ignoresFb_returnState _).comp (ignoresFb_failCapture _))
    (ignoresFb_raiseWithState _ _)⟩

theorem operatesIgnoringFb_execCfgWrite (reg : Byte) (v : BitVec 32) : OperatesIgnoringFb (execCfgWrite reg v) := by
  refine ⟨_, fun _ => rfl, fun _ => .ite (fun _ _ => rfl) (ignoresFb_respond _ _) fun b fb => ⟨fb, ?_⟩⟩
  rw [configWrite_setFb]
  cases configWrite reg v b with
  | none => rfl
  | some c => rfl

/-- No register shows FB: the frame registers are FRAME_META's fields and DIM (10_state.md R37). -/
theorem operatesIgnoringFb_execStatusRead (reg : Byte) : OperatesIgnoringFb (execStatusRead reg) := by
  have hanswer : ∀ w, IgnoresFb fun b =>
      if frameRegister reg = true ∧ b.phase ≠ .complete then raiseError .host .illegalState b
      else returnData .host (bytes32 w) b :=
    fun _ => .ite (fun _ _ => rfl) (ignoresFb_respond _ _) (ignoresFb_respond _ _)
  refine ⟨_, fun _ => rfl, fun _ b fb => ?_⟩
  rw [readsNoFb_regWord reg b fb]
  cases regWord reg b with
  | none => exact ignoresFb_respond _ _ b fb
  | some w => exact hanswer w b fb

theorem exec_operatesIgnoringFb {i : Instr} (hi : ∀ row col, i ≠ .frameRead row col) : OperatesIgnoringFb (exec i) := by
  cases i with
  | frameRead row col => exact absurd rfl (hi row col)
  | encSimple | encFramed | encCmd => exact ⟨_, fun _ => rfl, fun _ => ignoresFb_respondReport _⟩
  | rptFramed | rptSimple => exact ⟨_, fun _ => rfl, fun _ => ignoresFb_emitBuilt _⟩
  | chkValidate | illegalOp => exact ⟨_, fun _ => rfl, fun _ => ignoresFb_respond _ _⟩
  | classify len r => exact operatesIgnoringFb_execClassify len r
  | capStart ch => exact operatesIgnoringFb_execCapStart ch
  | sendAck st => exact operatesIgnoringFb_execSendAck st
  | pktIn len r => exact operatesIgnoringFb_execPktIn len r
  | rdTimeout => exact operatesIgnoringFb_execRdTimeout
  | xportErr => exact operatesIgnoringFb_execXportErr
  | abort => exact ⟨_, fun _ => rfl, fun _ => (ignoresFb_returnState _).comp ignoresFb_returnToIdle⟩
  | cfgWrite reg v => exact operatesIgnoringFb_execCfgWrite reg v
  | statusRead reg => exact operatesIgnoringFb_execStatusRead reg
  | inTruncated => exact ⟨_, fun _ => rfl, ignoresFb_deliverTruncated⟩
  | inGet03 | inGet03End | inGet03Sto | inStatus07End | inStatus07 | inStatus08End | inStatus08 | inStatus0BEnd
    | inStatus0B | inOther => exact ⟨_, fun _ => rfl, fun _ => ignoresFb_deliver _ _ _⟩
  | inGet01 | inGet01End | inGet01Sto | inGet02 | inGet02End | inGet02Sto | inGet12 | inGet12End | inGet12Sto
    | inGet22 | inGet22End | inGet22Sto | inGet32 | inGet32End | inGet32Sto | inRow01Retain | inRow02Retain
    | inRow12Retain | inRow22Retain | inRow32Retain =>
    exact ⟨_, fun _ => rfl, fun _ => ignoresFb_deliverRow _ _ _ _ _ _ _ _⟩

/-! ## The reads of the frame outside COMPLETE -/

theorem exec_frameRead_of_not_complete (row col : Byte) {s : State} (hs : s.phase ≠ .complete) :
    exec (.frameRead row col) s = .next { s with output := some (.record .host [7]) } := if_pos hs

/-- Each of the frame registers 0x17..0x1A has a word (10_state.md R37). -/
theorem regWord_isSome_of_frameRegister {reg : Byte} (h : frameRegister reg = true) (b : Block) :
    ∃ w, regWord reg b = some w := by
  have hreg : reg = 0x17 ∨ reg = 0x18 ∨ reg = 0x19 ∨ reg = 0x1A := by
    simp only [frameRegister, Bool.and_eq_true, decide_eq_true_eq] at h
    bv_omega
  obtain rfl | rfl | rfl | rfl := hreg
  all_goals exact ⟨_, rfl⟩

theorem exec_statusRead_frameRegister_of_not_complete {reg : Byte} (hreg : frameRegister reg = true) {s : State}
    (hs : s.phase ≠ .complete) :
    exec (.statusRead reg) s = .next { s with output := some (.record .host [7]) } := by
  obtain ⟨w, hw⟩ := regWord_isSome_of_frameRegister hreg s.toBlock
  simp only [exec, execStatusRead, State.operate, hw, if_pos (And.intro hreg hs)]
  rfl

/-- Settles O53: outside COMPLETE FRAME_READ answers its error whatever FB holds, and every other instruction ignores FB in
any state. -/
theorem frameVisibleOnlyInComplete : Obligations.FrameVisibleOnlyInComplete := by
  refine ⟨fun row col s hs => exec_frameRead_of_not_complete row col hs, fun reg s hs h17 h1A => ?_,
    fun i s t u fb hs ht hu => ?_⟩
  · exact exec_statusRead_frameRegister_of_not_complete (by simp [frameRegister, h17, h1A]) hs
  · by_cases hi : ∃ row col, i = .frameRead row col
    · obtain ⟨row, col, rfl⟩ := hi
      cases (exec_frameRead_of_not_complete row col hs).symm.trans ht
      cases (exec_frameRead_of_not_complete (s := { s with fb := fb }) row col hs).symm.trans hu
      rfl
    · obtain ⟨f, hf, hfb⟩ := exec_operatesIgnoringFb (i := i) fun row col h => hi ⟨row, col, h⟩
      obtain ⟨fb', h⟩ := hfb s.params s.toBlock fb
      cases (hf s).symm.trans ht
      cases (hf { s with fb := fb }).symm.trans hu
      simp only [State.operate, h]

end Sys2Proof.Machine
end

section
/-! PROOF. 30_encoding.md: what is an instruction (R81, R86, R88, R91) and what is none (R82,
R95, R96), and what of an instruction's bytes is read and put out (R83, R84, R89). -/

namespace Sys2Proof.Machine

/-! ## Transactions (30_encoding.md R81) -/

/-- The table of 30_encoding.md R81: an assigned op code, the bytes that follow it, and the operation they are. -/
inductive Operation : Byte → List Byte → Instr → Prop
  | encSimple (opcode : Byte) (args : List Byte) (h : args.length < 256) :
      Operation 0x01 (opcode :: BitVec.ofNat 8 args.length :: args) (.encSimple opcode args)
  | encFramed (cmd dt : Byte) (payload : List Byte) (h : payload.length < 256) :
      Operation 0x02 (cmd :: dt :: BitVec.ofNat 8 payload.length :: payload) (.encFramed cmd dt payload)
  | encCmd (kind : Byte) (arg : BitVec 24) : Operation 0x03 (kind :: bytes24 arg) (.encCmd kind arg)
  | chkValidate (r : Report) (h : r.length = 64) : Operation 0x04 r (.chkValidate r)
  | classify (len : Byte) (r : Report) (h : r.length = 64) : Operation 0x05 (len :: r) (.classify len r)
  | capStart (ch : Byte) : Operation 0x10 [ch] (.capStart ch)
  | sendAck (st : Byte) : Operation 0x11 [st] (.sendAck st)
  | pktIn (len : Byte) (r : Report) (h : r.length = 64) : Operation 0x12 (len :: r) (.pktIn len r)
  | rdTimeout : Operation 0x13 [] .rdTimeout
  | xportErr : Operation 0x14 [] .xportErr
  | abort : Operation 0x15 [] .abort
  | cfgWrite (reg : Byte) (v : BitVec 32) : Operation 0x20 (reg :: bytes32 v) (.cfgWrite reg v)
  | statusRead (reg : Byte) : Operation 0x21 [reg] (.statusRead reg)
  | frameRead (row col : Byte) : Operation 0x22 [row, col] (.frameRead row col)

/-! ### Each operand form is read as the table says -/

theorem be24_bytes24 (v : BitVec 24) :
    be24 (v.extractLsb' 16 8) (v.extractLsb' 8 8) (v.extractLsb' 0 8) = v := by
  rw [be24, BitVec.extractLsb'_append_extractLsb'_eq_extractLsb',
    BitVec.extractLsb'_append_extractLsb'_eq_extractLsb', BitVec.extractLsb'_eq_self] <;> rfl

theorem be32_bytes32 (v : BitVec 32) :
    be32 (v.extractLsb' 24 8) (v.extractLsb' 16 8) (v.extractLsb' 8 8) (v.extractLsb' 0 8) = v := by
  rw [be32, BitVec.extractLsb'_append_extractLsb'_eq_extractLsb',
    BitVec.extractLsb'_append_extractLsb'_eq_extractLsb', BitVec.extractLsb'_append_extractLsb'_eq_extractLsb',
    BitVec.extractLsb'_eq_self] <;> rfl

theorem bytes24_be24 (a b c : Byte) : bytes24 (be24 a b c) = [a, b, c] := by
  have ha : (be24 a b c).extractLsb' 16 8 = a :=
    (BitVec.extractLsb'_append_eq_of_le (by decide)).trans BitVec.extractLsb'_append_eq_left
  have hb : (be24 a b c).extractLsb' 8 8 = b :=
    (BitVec.extractLsb'_append_eq_of_le (by decide)).trans BitVec.extractLsb'_append_eq_right
  have hc : (be24 a b c).extractLsb' 0 8 = c := BitVec.extractLsb'_append_eq_right
  rw [bytes24, ha, hb, hc]

theorem bytes32_be32 (a b c d : Byte) : bytes32 (be32 a b c d) = [a, b, c, d] := by
  have hhi (k : Nat) (hk : 8 ≤ k) : (be32 a b c d).extractLsb' k 8 = (be24 a b c).extractLsb' (k - 8) 8 :=
    BitVec.extractLsb'_append_eq_of_le hk
  have hd : (be32 a b c d).extractLsb' 0 8 = d := BitVec.extractLsb'_append_eq_right
  rw [bytes32, hhi 24 (by decide), hhi 16 (by decide), hhi 8 (by decide), hd]
  exact congrArg (· ++ [d]) (bytes24_be24 a b c)

theorem toNat_count {n : Nat} (h : n < 256) : (BitVec.ofNat 8 n).toNat = n :=
  (BitVec.toNat_ofNat ..).trans (Nat.mod_eq_of_lt h)

/-- A count byte that says how many bytes follow (30_encoding.md R81). -/
theorem count_eq {m : Byte} {l : List Byte} (h : l.length = m.toNat) :
    l.length < 256 ∧ BitVec.ofNat 8 l.length = m := by
  rw [h]
  exact ⟨m.isLt, by simp⟩

theorem operation_encSimple {rest : List Byte} {i : Instr} (h : operandsEncSimple rest = some i) :
    Operation 0x01 rest i := by
  unfold operandsEncSimple at h
  split at h
  · split_ifs at h with hm
    obtain ⟨hlt, hcount⟩ := count_eq hm
    cases h
    rw [← hcount]
    exact .encSimple _ _ hlt
  · cases h

theorem operation_encFramed {rest : List Byte} {i : Instr} (h : operandsEncFramed rest = some i) :
    Operation 0x02 rest i := by
  unfold operandsEncFramed at h
  split at h
  · split_ifs at h with hm
    obtain ⟨hlt, hcount⟩ := count_eq hm
    cases h
    rw [← hcount]
    exact .encFramed _ _ _ hlt
  · cases h

theorem operation_encCmd {rest : List Byte} {i : Instr} (h : operandsEncCmd rest = some i) : Operation 0x03 rest i := by
  unfold operandsEncCmd at h
  split at h
  · cases h
    rw [← bytes24_be24 _ _ _]
    exact .encCmd _ _
  · cases h

theorem operation_chkValidate {rest : List Byte} {i : Instr} (h : operandsChkValidate rest = some i) :
    Operation 0x04 rest i := by
  unfold operandsChkValidate at h
  split_ifs at h with hr
  cases h
  exact .chkValidate _ hr

theorem operation_classify {rest : List Byte} {i : Instr} (h : operandsClassify rest = some i) :
    Operation 0x05 rest i := by
  unfold operandsClassify at h
  split at h
  · split_ifs at h with hr
    cases h
    exact .classify _ _ hr
  · cases h

theorem operation_pktIn {rest : List Byte} {i : Instr} (h : operandsPktIn rest = some i) : Operation 0x12 rest i := by
  unfold operandsPktIn at h
  split at h
  · split_ifs at h with hr
    cases h
    exact .pktIn _ _ hr
  · cases h

theorem operation_cfgWrite {rest : List Byte} {i : Instr} (h : operandsCfgWrite rest = some i) :
    Operation 0x20 rest i := by
  unfold operandsCfgWrite at h
  split at h
  · cases h
    rw [← bytes32_be32]
    exact .cfgWrite _ _
  · cases h

theorem operation_frameRead {rest : List Byte} {i : Instr} (h : operandsFrameRead rest = some i) :
    Operation 0x22 rest i := by
  unfold operandsFrameRead at h
  split at h
  · cases h
    exact .frameRead _ _
  · cases h

theorem operation_of_operandsByte {op : Byte} {f : Byte → Instr} (hf : ∀ x, Operation op [x] (f x)) {rest : List Byte}
    {i : Instr} (h : operandsByte f rest = some i) : Operation op rest i := by
  unfold operandsByte at h
  split at h
  · cases h
    exact hf _
  · cases h

theorem operation_of_operandsNone {op : Byte} {j : Instr} (hj : Operation op [] j) {rest : List Byte} {i : Instr}
    (h : operandsNone j rest = some i) : Operation op rest i := by
  unfold operandsNone at h
  split at h
  · cases h
    exact hj
  · cases h

/-- What the operand bytes of an assigned op code are read as stands in the table of R81. -/
theorem operation_of_decodeOperands {op : Byte} {rest : List Byte} {i : Instr} (hop : op ∈ assignedOps)
    (h : decodeOperands op rest = some i) : Operation op rest i := by
  simp only [assignedOps, List.mem_cons, List.not_mem_nil, or_false] at hop
  obtain rfl | rfl | rfl | rfl | rfl | rfl | rfl | rfl | rfl | rfl | rfl | rfl | rfl | rfl := hop
  · exact operation_encSimple h
  · exact operation_encFramed h
  · exact operation_encCmd h
  · exact operation_chkValidate h
  · exact operation_classify h
  · exact operation_of_operandsByte .capStart h
  · exact operation_of_operandsByte .sendAck h
  · exact operation_pktIn h
  · exact operation_of_operandsNone .rdTimeout h
  · exact operation_of_operandsNone .xportErr h
  · exact operation_of_operandsNone .abort h
  · exact operation_cfgWrite h
  · exact operation_of_operandsByte .statusRead h
  · exact operation_frameRead h

section Operations

variable {op : Byte} {rest : List Byte} {i : Instr}

theorem Operation.decodeOperands_eq (h : Operation op rest i) : decodeOperands op rest = some i := by
  cases h with
  | encSimple _ args hm | encFramed _ _ args hm =>
    exact if_pos (toNat_count hm).symm
  | encCmd kind arg => exact congrArg (fun v => some (Instr.encCmd kind v)) (be24_bytes24 arg)
  | cfgWrite reg v => exact congrArg (fun v => some (Instr.cfgWrite reg v)) (be32_bytes32 v)
  | chkValidate _ hr | classify _ _ hr | pktIn _ _ hr => exact if_pos hr
  | _ => rfl

theorem Operation.assigned (h : Operation op rest i) : op ∈ assignedOps := by
  cases h <;> decide

theorem Operation.encode_eq (h : Operation op rest i) (g : Byte) :
    encode g i = .transaction (portOfOp op) (op :: rest) := by
  cases h <;> rfl

theorem Operation.wf (h : Operation op rest i) (g : Byte) (proto : Protocol) : i.wf g proto = true := by
  cases h with
  | encSimple _ _ h | encFramed _ _ _ h | chkValidate _ h | classify _ _ h | pktIn _ _ h => exact decide_eq_true h
  | _ => rfl

/-- The operand bytes are as many as R81 gives the op code. -/
theorem Operation.length_eq (h : Operation op rest i) : rest.length = operandLength op rest := by
  cases h with
  | encSimple _ args hm =>
    change args.length + 2 = 2 + (BitVec.ofNat 8 args.length).toNat
    rw [toNat_count hm, Nat.add_comm]
  | encFramed _ _ payload hm =>
    change payload.length + 3 = 3 + (BitVec.ofNat 8 payload.length).toNat
    rw [toNat_count hm, Nat.add_comm]
  | chkValidate _ hr => exact hr
  | classify _ _ hr | pktIn _ _ hr => exact congrArg (· + 1) hr
  | _ => rfl

end Operations

/-- The decoder's three readings of a transaction with an op code, in the order of 60_exceptions.md R243. -/
theorem decodeTransaction_of_unassigned {op : Byte} (h : op ∉ assignedOps) (port : Port) (rest : List Byte) :
    decodeTransaction port (op :: rest) = .instr (.illegalOp port op rest) := if_pos h

theorem decodeTransaction_of_wrongPort {port : Port} {op : Byte} (h : op ∈ assignedOps) (hp : portOfOp op ≠ port)
    (rest : List Byte) : decodeTransaction port (op :: rest) = .rejected (.wrongPort port op) := by
  rw [decodeTransaction, if_neg (not_not.mpr h), if_pos hp]

theorem Operation.decodeTransaction_eq {op : Byte} {rest : List Byte} {i : Instr} (h : Operation op rest i) :
    decodeTransaction (portOfOp op) (op :: rest) = .instr i := by
  rw [decodeTransaction, if_neg (not_not.mpr h.assigned), if_neg (not_not.mpr rfl), h.decodeOperands_eq]

/-- Bytes of the wrong length are no operation of the table. -/
theorem decodeTransaction_of_wrongLength {op : Byte} {rest : List Byte} (h : op ∈ assignedOps)
    (hlen : rest.length ≠ operandLength op rest) :
    decodeTransaction (portOfOp op) (op :: rest) = .rejected (.wrongLength (portOfOp op) op) := by
  rw [decodeTransaction, if_neg (not_not.mpr h), if_neg (not_not.mpr rfl)]
  cases hd : decodeOperands op rest with
  | none => rfl
  | some i => exact absurd (operation_of_decodeOperands h hd).length_eq hlen

/-- A transaction that is an instruction has an unassigned op code, or is an operation of the table on its port. -/
theorem decodeTransaction_eq_instr {port : Port} {bytes : List Byte} {i : Instr}
    (h : decodeTransaction port bytes = .instr i) :
    ∃ op rest, bytes = op :: rest ∧
      ((op ∉ assignedOps ∧ i = .illegalOp port op rest) ∨ (portOfOp op = port ∧ Operation op rest i)) := by
  unfold decodeTransaction at h
  split at h
  · cases h
  · next op rest =>
    refine ⟨op, rest, rfl, ?_⟩
    split_ifs at h with hop hport
    · split at h
      · next j hj =>
        cases h
        exact .inr ⟨not_not.mp hport, operation_of_decodeOperands hop hj⟩
      · cases h
    · cases h
      exact .inl ⟨hop, rfl⟩

/-! ### Transactions that are no instruction, and the unassigned op codes -/

theorem portOfOp_eq_iff (op : Byte) (port : Port) :
    portOfOp op = port ↔ (port = .transport ↔ op ∈ [0x11#8, 0x12, 0x13, 0x14]) := by
  have hmem : op ∈ [0x11#8, 0x12, 0x13, 0x14] ↔ op = 0x11 ∨ op = 0x12 ∨ op = 0x13 ∨ op = 0x14 := by simp
  rw [hmem, portOfOp]
  split_ifs with h
  · exact ⟨fun e => ⟨fun _ => h, fun _ => e.symm⟩, fun e => (e.mpr h).symm⟩
  · cases port with
    | host => exact ⟨fun _ => ⟨nofun, fun h' => absurd h' h⟩, fun _ => rfl⟩
    | transport => exact ⟨nofun, fun e => absurd (e.mp rfl) h⟩

theorem appendsState_iff (op : Byte) : appendsState op = true ↔ op ∈ [0x11#8, 0x12, 0x13, 0x14, 0x15] := by
  simp [appendsState]

/-- Settles O2: each of the three kinds of bytes is one rejection, and its answer writes the result alone. -/
theorem rejectedTransactionChangesNothing : Obligations.RejectedTransactionChangesNothing := by
  intro s rest port
  refine ⟨fun hin => step_eq_reject_of_fetch hin rfl, fun op ops hin hop => ⟨fun hport => ?_, fun hport hlen => ?_⟩⟩
  · rw [← portOfOp_eq_iff] at hport
    exact step_eq_reject_of_fetch hin (congrArg some (decodeTransaction_of_wrongPort hop hport ops))
  · rw [← portOfOp_eq_iff] at hport
    subst hport
    rw [step_eq_reject_of_fetch hin (congrArg some (decodeTransaction_of_wrongLength hop hlen))]
    by_cases happ : appendsState op = true
    · simp only [State.operate, reject, if_pos happ, if_pos ((appendsState_iff op).mp happ)]
      rfl
    · simp only [State.operate, reject, if_neg happ, if_neg (mt (appendsState_iff op).mpr happ)]
      rfl

/-- Settles O49: none of these op codes is assigned. -/
theorem unassignedOpIsIllegal : Obligations.UnassignedOpIsIllegal := by
  intro op rest port getEcho proto s hop
  have hun : op ∉ assignedOps := by
    intro hmem
    simp only [assignedOps, List.mem_cons, List.not_mem_nil, or_false] at hmem
    obtain rfl | rfl | rfl | rfl | rfl | rfl | rfl | rfl | rfl | rfl | rfl | rfl | rfl | rfl := hmem
    all_goals revert hop; decide
  exact ⟨decodeTransaction_of_unassigned hun port rest, rfl⟩

/-! ## No stop (30_encoding.md R99) -/

/-- With a DIM of the invariant every cell of the frame has an address (10_state.md R26). -/
theorem Inv.execFrameRead_next {s : State} (h : Inv s) (row col : Byte) : ∃ t, execFrameRead row col s = .next t := by
  unfold execFrameRead
  split_ifs with hphase hrange
  · exact ⟨_, rfl⟩
  · exact ⟨_, rfl⟩
  · have hdim : s.dim.toNat ≤ 24 := by
      obtain h | h | h := h.dimLegal <;> simp [h]
    have hcell : row.toNat * Config.fbStride + col.toNat < Config.fbCells := by
      simp only [Config.fbStride, Config.fbCells]
      omega
    rw [FrameBuffer.read?, if_pos hcell]
    exact ⟨_, rfl⟩

theorem Inv.exec_next {s : State} (h : Inv s) (i : Instr) : ∃ t, exec i s = .next t := by
  by_cases hi : ∃ row col, i = .frameRead row col
  · obtain ⟨row, col, rfl⟩ := hi
    exact h.execFrameRead_next row col
  · obtain ⟨f, hf⟩ := exec_eq_operate (i := i) fun row col hrc => hi ⟨row, col, hrc⟩
    exact ⟨_, hf s⟩

/-- Settles O11: only FRAME_READ can stop, and not with a DIM of the invariant. -/
theorem stepNeverStops : Obligations.StepNeverStops := by
  intro s hs
  obtain ⟨-, h⟩ | ⟨inp, rest, -, ⟨-, h⟩ | ⟨i, -, h⟩ | ⟨e, -, h⟩⟩ := step_cases s
  · exact ⟨_, h⟩
  · exact ⟨_, h⟩
  · obtain ⟨t, ht⟩ := (hs.of_output rest s.output s.draws).exec_next i
    exact ⟨t, h.trans ht⟩
  · exact ⟨_, h⟩

/-! ## Inbound reports (30_encoding.md R91) -/

/-- The table of 30_encoding.md R91, on an instance with GET_ECHO `g`: the bytes b[2], b[4] and b[5] of a non-truncated
report, and its class. -/
inductive InboundRow (g : Byte) (p : Packet) : (echo dt st : Byte) → Instr → Prop
  | get01 {st} (h : continuingStatus st = true) : InboundRow g p g 0x01 st (.inGet01 p st)
  | get01End : InboundRow g p g 0x01 0x0B (.inGet01End p)
  | get01Sto : InboundRow g p g 0x01 0xF1 (.inGet01Sto p)
  | get02 {st} (h : continuingStatus st = true) : InboundRow g p g 0x02 st (.inGet02 p st)
  | get02End : InboundRow g p g 0x02 0x0B (.inGet02End p)
  | get02Sto : InboundRow g p g 0x02 0xF1 (.inGet02Sto p)
  | get12 {st} (h : continuingStatus st = true) : InboundRow g p g 0x12 st (.inGet12 p st)
  | get12End : InboundRow g p g 0x12 0x0B (.inGet12End p)
  | get12Sto : InboundRow g p g 0x12 0xF1 (.inGet12Sto p)
  | get22 {st} (h : continuingStatus st = true) : InboundRow g p g 0x22 st (.inGet22 p st)
  | get22End : InboundRow g p g 0x22 0x0B (.inGet22End p)
  | get22Sto : InboundRow g p g 0x22 0xF1 (.inGet22Sto p)
  | get32 {st} (h : continuingStatus st = true) : InboundRow g p g 0x32 st (.inGet32 p st)
  | get32End : InboundRow g p g 0x32 0x0B (.inGet32End p)
  | get32Sto : InboundRow g p g 0x32 0xF1 (.inGet32Sto p)
  | get03 {st} (h : continuingStatus st = true) : InboundRow g p g 0x03 st (.inGet03 p st)
  | get03End : InboundRow g p g 0x03 0x0B (.inGet03End p)
  | get03Sto : InboundRow g p g 0x03 0xF1 (.inGet03Sto p)
  | row01 {echo st} (h : echo ≠ g) : InboundRow g p echo 0x01 st (.inRow01Retain p echo st)
  | row02 {echo st} (h : echo ≠ g) : InboundRow g p echo 0x02 st (.inRow02Retain p echo st)
  | row12 {echo st} (h : echo ≠ g) : InboundRow g p echo 0x12 st (.inRow12Retain p echo st)
  | row22 {echo st} (h : echo ≠ g) : InboundRow g p echo 0x22 st (.inRow22Retain p echo st)
  | row32 {echo st} (h : echo ≠ g) : InboundRow g p echo 0x32 st (.inRow32Retain p echo st)
  | status07End {echo} : InboundRow g p echo 0x07 0x17 (.inStatus07End p echo)
  | status07 {echo st} (h : st ≠ 0x17) : InboundRow g p echo 0x07 st (.inStatus07 p echo st)
  | status08End {echo} : InboundRow g p echo 0x08 0x17 (.inStatus08End p echo)
  | status08 {echo st} (h : st ≠ 0x17) : InboundRow g p echo 0x08 st (.inStatus08 p echo st)
  | status0BEnd {echo} : InboundRow g p echo 0x0B 0x17 (.inStatus0BEnd p echo)
  | status0B {echo st} (h : st ≠ 0x17) : InboundRow g p echo 0x0B st (.inStatus0B p echo st)
  | other {echo dt st} (h : dt ∉ classifiedTypes ∨ (dt = 0x03 ∧ echo ≠ g)) :
      InboundRow g p echo dt st (.inOther p echo dt st)

section Classes

variable {g : Byte} {p : Packet} {echo dt st : Byte} {i : Instr}

theorem continuingStatus_iff : continuingStatus st = true ↔ st ≠ 0x0B ∧ st ≠ 0xF1 := by
  simp [continuingStatus]

/-! ### The classes of the table are the decoder's -/

theorem getReplyClass_row {cont terminal timeout : Instr}
    (hcont : continuingStatus st = true → InboundRow g p g dt st cont) (hend : InboundRow g p g dt 0x0B terminal)
    (hsto : InboundRow g p g dt 0xF1 timeout) : InboundRow g p g dt st (getReplyClass st cont terminal timeout) := by
  unfold getReplyClass
  split_ifs with h1 h2
  · rw [h1]; exact hend
  · rw [h2]; exact hsto
  · exact hcont (continuingStatus_iff.mpr ⟨h1, h2⟩)

/-- A data_type of GET_SET: a get reply where the echo is GET_ECHO, else the class beside it. -/
theorem echoClass_row {reply retain : Instr} (hreply : InboundRow g p g dt st reply)
    (hretain : echo ≠ g → InboundRow g p echo dt st retain) :
    InboundRow g p echo dt st (if echo = g then reply else retain) := by
  split_ifs with h
  · rw [h]; exact hreply
  · exact hretain h

theorem statusClass_row {terminal cont : Instr} (hend : InboundRow g p echo dt 0x17 terminal)
    (hcont : st ≠ 0x17 → InboundRow g p echo dt st cont) :
    InboundRow g p echo dt st (if st = 0x17 then terminal else cont) := by
  split_ifs with h
  · rw [h]; exact hend
  · exact hcont h

theorem inboundClass_of_not_classified (h : dt ∉ classifiedTypes) :
    inboundClass g p echo dt st = .inOther p echo dt st := by
  simp only [classifiedTypes, List.mem_cons, List.not_mem_nil, or_false, not_or] at h
  simp only [inboundClass, h, if_false]

/-- The class the decoder gives a report stands in the table. -/
theorem inboundClass_row (g : Byte) (p : Packet) (echo dt st : Byte) :
    InboundRow g p echo dt st (inboundClass g p echo dt st) := by
  by_cases hdt : dt ∈ classifiedTypes
  · simp only [classifiedTypes, List.mem_cons, List.not_mem_nil, or_false] at hdt
    obtain rfl | rfl | rfl | rfl | rfl | rfl | rfl | rfl | rfl := hdt
    · exact echoClass_row (getReplyClass_row .get01 .get01End .get01Sto) .row01
    · exact echoClass_row (getReplyClass_row .get02 .get02End .get02Sto) .row02
    · exact echoClass_row (getReplyClass_row .get12 .get12End .get12Sto) .row12
    · exact echoClass_row (getReplyClass_row .get22 .get22End .get22Sto) .row22
    · exact echoClass_row (getReplyClass_row .get32 .get32End .get32Sto) .row32
    · exact echoClass_row (getReplyClass_row .get03 .get03End .get03Sto) fun h => .other (.inr ⟨rfl, h⟩)
    · exact statusClass_row .status07End .status07
    · exact statusClass_row .status08End .status08
    · exact statusClass_row .status0BEnd .status0B
  · rw [inboundClass_of_not_classified hdt]
    exact .other (.inl hdt)

/-- The decoder gives a report the class the table has for it, so it has one only. -/
theorem InboundRow.inboundClass_eq (h : InboundRow g p echo dt st i) : inboundClass g p echo dt st = i := by
  cases h with
  | get01 h | get02 h | get12 h | get22 h | get32 h | get03 h =>
    obtain ⟨hend, hsto⟩ := continuingStatus_iff.mp h
    simp only [inboundClass, getReplyClass, hend, hsto, if_true, if_false, BitVec.reduceEq]
  | row01 h | row02 h | row12 h | row22 h | row32 h | status07 h | status08 h | status0B h =>
    simp only [inboundClass, h, if_true, if_false, BitVec.reduceEq]
  | other h =>
    obtain h | ⟨rfl, h⟩ := h
    · exact inboundClass_of_not_classified h
    · simp only [inboundClass, h, if_true, if_false, BitVec.reduceEq]
  | _ => simp only [inboundClass, getReplyClass, if_true, if_false, BitVec.reduceEq]

theorem InboundRow.wf (h : InboundRow g p echo dt st i) (hp : p.wf = true) (proto : Protocol) :
    i.wf g proto = true := by
  cases h with
  | get01 h | get02 h | get12 h | get22 h | get32 h | get03 h => exact Bool.and_eq_true_iff.mpr ⟨hp, h⟩
  | row01 h | row02 h | row12 h | row22 h | row32 h | status07 h | status08 h | status0B h =>
    exact Bool.and_eq_true_iff.mpr ⟨hp, decide_eq_true h⟩
  | other h => simpa only [Instr.wf, hp, Bool.true_and, Bool.or_eq_true, Bool.and_eq_true, decide_eq_true_eq] using h
  | _ => exact hp

theorem InboundRow.encode_eq (h : InboundRow g p echo dt st i) :
    encode g i = .inbound p.len (packetReport p echo dt st) := by
  cases h <;> rfl

/-! ### The bytes of a report and the packet they are -/

theorem Packet.wf_iff : p.wf = true ↔ 6 ≤ p.len.toNat ∧ p.len.toNat ≤ 64 ∧ p.body.length = 58 := by
  simp only [Packet.wf, Bool.and_eq_true, decide_eq_true_eq, and_assoc]

/-- 64 bytes of which 6 or more are meaningful are the report of a packet (30_encoding.md R90). -/
theorem exists_packetReport {len : Byte} {r : Report} (hr : r.length = 64) (h6 : 6 ≤ len.toNat) (h64 : len.toNat ≤ 64) :
    ∃ (p : Packet) (echo dt st : Byte), p.wf = true ∧ p.len = len ∧ packetReport p echo dt st = r := by
  match r, hr with
  | b0 :: b1 :: b2 :: b3 :: b4 :: b5 :: body, hr =>
    exact ⟨⟨len, b0, b1, b3, body⟩, b2, b4, b5, Packet.wf_iff.mpr ⟨h6, h64, by simpa using hr⟩, rfl, rfl⟩

theorem decodeInbound_of_wrongLength {len : Byte} {r : Report} (hr : r.length ≠ 64) (g : Byte) :
    decodeInbound g len r = .rejected .inboundLength := if_pos hr

theorem decodeInbound_of_long {len : Byte} {r : Report} (hr : r.length = 64) (hlen : 64 < len.toNat) (g : Byte) :
    decodeInbound g len r = .instr (.pktIn len r) := (if_neg (not_not.mpr hr)).trans (if_pos hlen)

theorem decodeInbound_of_truncated {len : Byte} {r : Report} (hr : r.length = 64) (hlen : len.toNat < 6) (g : Byte) :
    decodeInbound g len r = .instr (.inTruncated len r) :=
  (if_neg (not_not.mpr hr)).trans ((if_neg (by omega)).trans (if_pos hlen))

theorem decodeInbound_packetReport (hp : p.wf = true) (g echo dt st : Byte) :
    decodeInbound g p.len (packetReport p echo dt st) = .instr (inboundClass g p echo dt st) := by
  obtain ⟨h6, h64, -⟩ := Packet.wf_iff.mp hp
  have hr : (packetReport p echo dt st).length = 64 := Laws.packetReport_length hp echo dt st
  exact (if_neg (not_not.mpr hr)).trans ((if_neg (Nat.not_lt.mpr h64)).trans (if_neg (Nat.not_lt.mpr h6)))

/-- An inbound report that is an instruction is 64 bytes long, and is PKT_IN, truncated, or a row of the table. -/
theorem decodeInbound_eq_instr {len : Byte} {r : Report} (h : decodeInbound g len r = .instr i) :
    r.length = 64 ∧ ((64 < len.toNat ∧ i = .pktIn len r) ∨ (len.toNat < 6 ∧ i = .inTruncated len r) ∨
      ∃ p echo dt st, p.wf = true ∧ p.len = len ∧ packetReport p echo dt st = r ∧ InboundRow g p echo dt st i) := by
  have hr : r.length = 64 := by
    by_contra hr
    cases (decodeInbound_of_wrongLength hr g).symm.trans h
  refine ⟨hr, ?_⟩
  by_cases h64 : 64 < len.toNat
  · cases (decodeInbound_of_long hr h64 g).symm.trans h
    exact .inl ⟨h64, rfl⟩
  by_cases h6 : len.toNat < 6
  · cases (decodeInbound_of_truncated hr h6 g).symm.trans h
    exact .inr (.inl ⟨h6, rfl⟩)
  obtain ⟨p, echo, dt, st, hp, rfl, rfl⟩ := exists_packetReport hr (Nat.not_lt.mp h6) (Nat.not_lt.mp h64)
  cases (decodeInbound_packetReport hp g echo dt st).symm.trans h
  exact .inr (.inr ⟨p, echo, dt, st, hp, rfl, rfl, inboundClass_row g p echo dt st⟩)

end Classes
/-! ## Outbound reports (30_encoding.md R86, R88) -/

theorem byteAt_append_add (l t : List Byte) (k : Nat) : byteAt (l ++ t) (l.length + k) = byteAt t k := by
  rw [byteAt, List.getD_append_right _ _ _ _ (Nat.le_add_right ..), Nat.add_sub_cancel_left]
  rfl

section Framed

variable (cmd dt : Byte) {payload : List Byte}

/-- A framed report is its preamble and body, and a trailer of checksum, sentinels and pad (30_encoding.md R86). -/
theorem framedReport_eq_append : framedReport cmd dt payload =
    (Config.preamble :: framedBody cmd dt payload) ++
      (chk (framedBody cmd dt payload) :: Config.sentinel :: Config.sentinel ::
        List.replicate (Config.maxFramedPayload - payload.length) 0) := by
  simp [framedReport]

theorem length_preamble_framedBody : (Config.preamble :: framedBody cmd dt payload).length = 4 + payload.length := by
  simp only [framedBody, List.length_cons]
  omega

theorem byteAt_framedReport_trailer (k : Nat) : byteAt (framedReport cmd dt payload) (4 + payload.length + k) =
    byteAt (chk (framedBody cmd dt payload) :: Config.sentinel :: Config.sentinel ::
      List.replicate (Config.maxFramedPayload - payload.length) 0) k := by
  rw [framedReport_eq_append, ← length_preamble_framedBody cmd dt, byteAt_append_add]

theorem toNat_byteAt_framedReport_two (h : payload.length ≤ 57) :
    (byteAt (framedReport cmd dt payload) 2).toNat = payload.length + 1 := toNat_count (by omega)

theorem slice_framedReport_body :
    slice (framedReport cmd dt payload) 1 (payload.length + 3) = framedBody cmd dt payload := by
  rw [framedReport_eq_append]
  exact List.take_left' (by simp [framedBody])

theorem payloadOf_framedReport (h : payload.length ≤ 57) : payloadOf (framedReport cmd dt payload) = payload := by
  rw [payloadOf, toNat_byteAt_framedReport_two cmd dt h, framedReport_eq_append]
  exact List.take_left' rfl

/-- The validator accepts what the framer builds (40_framer.md R122). -/
theorem validate_framedReport (h : payload.length ≤ 57) : validate (framedReport cmd dt payload) = .ok := by
  have hchk : byteAt (framedReport cmd dt payload) (4 + payload.length) = chk (framedBody cmd dt payload) :=
    byteAt_framedReport_trailer cmd dt 0
  have hs1 : byteAt (framedReport cmd dt payload) (5 + payload.length) = Config.sentinel := by
    rw [show 5 + payload.length = 4 + payload.length + 1 by omega]
    exact byteAt_framedReport_trailer cmd dt 1
  have hs2 : byteAt (framedReport cmd dt payload) (6 + payload.length) = Config.sentinel := by
    rw [show 6 + payload.length = 4 + payload.length + 2 by omega]
    exact byteAt_framedReport_trailer cmd dt 2
  have hpre : byteAt (framedReport cmd dt payload) 0 = Config.preamble := rfl
  rw [validate, toNat_byteAt_framedReport_two cmd dt h, Nat.add_sub_cancel, if_neg (not_not.mpr hpre),
    if_neg (by omega), slice_framedReport_body, if_neg (not_not.mpr hchk),
    if_neg (not_or.mpr ⟨not_not.mpr hs1, not_not.mpr hs2⟩)]

theorem padIsZero_framedReport (h : payload.length ≤ 57) : padIsZero (framedReport cmd dt payload) = true := by
  rw [padIsZero, toNat_byteAt_framedReport_two cmd dt h, framedReport_eq_append,
    show 6 + (payload.length + 1) = 4 + payload.length + 3 by omega, ← length_preamble_framedBody cmd dt,
    List.drop_length_add_append]
  simp

theorem decodeOutbound_framedReport (h : payload.length ≤ 57) :
    decodeOutbound .framed (framedReport cmd dt payload) = .instr (.rptFramed cmd dt payload) := by
  have hlayout := And.intro (validate_framedReport cmd dt h) (padIsZero_framedReport cmd dt h)
  refine (if_pos ⟨framedReport_length cmd dt h, hlayout⟩).trans ?_
  rw [payloadOf_framedReport cmd dt h]
  rfl

end Framed

/-- A simple report says nothing of its length, so what it holds is its opcode and 63 bytes (log 19). -/
theorem decodeOutbound_simpleReport (opcode : Byte) {args : List Byte} (h : args.length = 63) :
    decodeOutbound .simple (simpleReport opcode args) = .instr (.rptSimple opcode args) := by
  have hr : simpleReport opcode args = opcode :: args := by simp [simpleReport, Config.maxSimpleParams, h]
  rw [hr]
  exact if_pos (congrArg (· + 1) h)

/-! ## Decoding and encoding -/

section RoundTrip

variable {g : Byte} {proto : Protocol} {i : Instr}

theorem Operation.decode_encode {op : Byte} {rest : List Byte} (h : Operation op rest i) (g : Byte) (proto : Protocol) :
    decode g proto (encode g i) = .instr i := by
  rw [h.encode_eq]
  exact h.decodeTransaction_eq

theorem InboundRow.decode_encode {p : Packet} {echo dt st : Byte} (h : InboundRow g p echo dt st i) (hp : p.wf = true)
    (proto : Protocol) : decode g proto (encode g i) = .instr i := by
  rw [h.encode_eq]
  exact (decodeInbound_packetReport hp g echo dt st).trans (congrArg _ h.inboundClass_eq)

end RoundTrip

/-- Settles O3: an operation is its row of R81, an inbound class its row of R91, and an outbound report its layout. -/
theorem decodeOfEncode : Obligations.DecodeOfEncode := by
  intro g proto i hwf
  cases i with
  | encSimple opcode args => exact (Operation.encSimple opcode args (of_decide_eq_true hwf)).decode_encode g proto
  | encFramed cmd dt payload => exact (Operation.encFramed cmd dt payload (of_decide_eq_true hwf)).decode_encode g proto
  | encCmd kind arg => exact (Operation.encCmd kind arg).decode_encode g proto
  | chkValidate r => exact (Operation.chkValidate r (of_decide_eq_true hwf)).decode_encode g proto
  | classify len r => exact (Operation.classify len r (of_decide_eq_true hwf)).decode_encode g proto
  | capStart ch => exact (Operation.capStart ch).decode_encode g proto
  | sendAck st => exact (Operation.sendAck st).decode_encode g proto
  | pktIn len r => exact (Operation.pktIn len r (of_decide_eq_true hwf)).decode_encode g proto
  | rdTimeout => exact Operation.rdTimeout.decode_encode g proto
  | xportErr => exact Operation.xportErr.decode_encode g proto
  | abort => exact Operation.abort.decode_encode g proto
  | cfgWrite reg v => exact (Operation.cfgWrite reg v).decode_encode g proto
  | statusRead reg => exact (Operation.statusRead reg).decode_encode g proto
  | frameRead row col => exact (Operation.frameRead row col).decode_encode g proto
  | illegalOp port op rest => exact decodeTransaction_of_unassigned (of_decide_eq_true hwf) port rest
  | rptFramed cmd dt payload =>
    obtain ⟨rfl, hlen⟩ : proto = .framed ∧ payload.length ≤ 57 := by simpa [Instr.wf] using hwf
    exact decodeOutbound_framedReport cmd dt hlen
  | rptSimple opcode args =>
    obtain ⟨rfl, hlen⟩ : proto = .simple ∧ args.length = 63 := by simpa [Instr.wf] using hwf
    exact decodeOutbound_simpleReport opcode hlen
  | inTruncated len r =>
    obtain ⟨hlen, hr⟩ : len.toNat < 6 ∧ r.length = 64 := by simpa [Instr.wf] using hwf
    exact decodeInbound_of_truncated hr hlen g
  | inGet01 p st | inGet02 p st | inGet12 p st | inGet22 p st | inGet32 p st | inGet03 p st =>
    obtain ⟨hp, hst⟩ := Bool.and_eq_true_iff.mp hwf
    exact InboundRow.decode_encode (by constructor; exact hst) hp proto
  | inRow01Retain p x | inRow02Retain p x | inRow12Retain p x | inRow22Retain p x | inRow32Retain p x
    | inStatus07 p _ x | inStatus08 p _ x | inStatus0B p _ x =>
    obtain ⟨hp, hx⟩ := Bool.and_eq_true_iff.mp hwf
    exact InboundRow.decode_encode (by constructor; exact of_decide_eq_true hx) hp proto
  | inOther p echo dt st =>
    obtain ⟨hp, hdt⟩ := Bool.and_eq_true_iff.mp hwf
    exact InboundRow.decode_encode (.other (by simpa using hdt)) hp proto
  | inGet01End p | inGet01Sto p | inGet02End p | inGet02Sto p | inGet12End p | inGet12Sto p | inGet22End p
    | inGet22Sto p | inGet32End p | inGet32Sto p | inGet03End p | inGet03Sto p | inStatus07End p | inStatus08End p
    | inStatus0BEnd p => exact InboundRow.decode_encode (by constructor) hwf proto

theorem decodeOutbound_eq_instr {proto : Protocol} {r : Report} {i : Instr} (h : decodeOutbound proto r = .instr i)
    (g : Byte) : i.wf g proto = true ∧ encode g i = .outbound r := by
  cases proto with
  | framed =>
    simp only [decodeOutbound] at h
    split_ifs at h with hr
    obtain ⟨hlen, hv, hpad⟩ := hr
    obtain ⟨hpl, heq⟩ := framedReport_of_validate hlen hv hpad
    cases h
    exact ⟨decide_eq_true hpl, congrArg Wire.outbound heq⟩
  | simple =>
    simp only [decodeOutbound] at h
    split_ifs at h with hlen
    obtain ⟨-, heq⟩ := simpleReport_of_length hlen
    have hpl : (r.drop 1).length = 63 := by rw [List.length_drop, hlen]; rfl
    cases h
    exact ⟨decide_eq_true hpl, congrArg Wire.outbound heq⟩

/-- Settles O4: each of the decoder's readings is a row of R81 or R91, or one of the two outbound layouts. -/
theorem encodeOfDecode : Obligations.EncodeOfDecode := by
  intro g proto w i h
  cases w with
  | transaction port bytes =>
    obtain ⟨op, rest, rfl, ⟨hop, rfl⟩ | ⟨rfl, hi⟩⟩ := decodeTransaction_eq_instr h
    · exact ⟨decide_eq_true hop, fun _ => rfl⟩
    · exact ⟨hi.wf g proto, fun _ => hi.encode_eq g⟩
  | inbound len r =>
    obtain ⟨hr, ⟨h64, rfl⟩ | ⟨h6, rfl⟩ | ⟨p, echo, dt, st, hp, rfl, rfl, hi⟩⟩ := decodeInbound_eq_instr h
    · exact ⟨decide_eq_true hr, fun hle => absurd (hle len r rfl) (Nat.not_le.mpr h64)⟩
    · exact ⟨Bool.and_eq_true_iff.mpr ⟨decide_eq_true h6, decide_eq_true hr⟩, fun _ => rfl⟩
    · exact ⟨hi.wf hp proto, fun _ => hi.encode_eq⟩
  | outbound r =>
    obtain ⟨hwf, he⟩ := decodeOutbound_eq_instr h g
    exact ⟨hwf, fun _ => he⟩

/-! ## What the classifier resolves of each class of R91 (41_classifier.md R143..R148) -/

/-- The continuation update, the error and the channel update that the classifier resolves of b[2], b[4] and b[5]. -/
structure Resolves (g echo dt st : Byte) (cont : Option Bool) (err : Option ErrCode) (ch : Option (BitVec 3)) :
    Prop where
  cont_eq : contUpdate g echo dt st = cont
  err_eq : errUpdate g echo dt st = err
  ch_eq : chUpdate g echo dt = ch

section Flags

variable {g echo dt st : Byte}

theorem isGetReply_iff : isGetReply g echo dt = true ↔ echo = g ∧ dt ∈ getSet := by
  simp only [isGetReply, Bool.and_eq_true, decide_eq_true_eq]

theorem resolves_continuing (hdt : dt ∈ getSet) (hst : continuingStatus st = true) :
    Resolves g g dt st (some true) none (some (((dt >>> 4) + 1).setWidth 3)) := by
  have hget : isGetReply g g dt = true := isGetReply_iff.mpr ⟨rfl, hdt⟩
  obtain ⟨hend, hsto⟩ := continuingStatus_iff.mp hst
  constructor
  · rw [contUpdate, if_pos hget, if_neg hend, if_neg hsto]
  · exact if_neg fun h => hsto h.2
  · exact if_pos hget

theorem resolves_terminal (hdt : dt ∈ getSet) :
    Resolves g g dt 0x0B (some false) none (some (((dt >>> 4) + 1).setWidth 3)) := by
  have hget : isGetReply g g dt = true := isGetReply_iff.mpr ⟨rfl, hdt⟩
  constructor
  · rw [contUpdate, if_pos hget, if_pos rfl]
  · exact if_neg fun h => absurd h.2 (by decide)
  · exact if_pos hget

theorem resolves_timeout (hdt : dt ∈ getSet) :
    Resolves g g dt 0xF1 (some false) (some .sensorTimeout) (some (((dt >>> 4) + 1).setWidth 3)) := by
  have hget : isGetReply g g dt = true := isGetReply_iff.mpr ⟨rfl, hdt⟩
  constructor
  · rw [contUpdate, if_pos hget, if_neg (by decide), if_pos rfl]
  · exact if_pos ⟨hget, rfl⟩
  · exact if_pos hget

/-- In a status reply the status byte alone decides, whatever the echo (41_classifier.md R146). -/
theorem resolves_status (hdt : dt ∈ statusSet) : Resolves g echo dt st (some (decide (st ≠ 0x17))) none none := by
  have hget : ¬ isGetReply g echo dt = true := by
    rw [isGetReply_iff]
    rintro ⟨-, hdt'⟩
    revert dt
    decide
  constructor
  · rw [contUpdate, if_neg hget, if_pos hdt]
  · exact if_neg fun h => hget h.1
  · exact if_neg hget

theorem resolves_status_continuing (hdt : dt ∈ statusSet) (hst : st ≠ 0x17) :
    Resolves g echo dt st (some true) none none := by
  rw [← decide_eq_true hst]
  exact resolves_status hdt

theorem resolves_retain (hdt : dt ∉ statusSet) (hecho : echo ≠ g ∨ dt ∉ getSet) :
    Resolves g echo dt st none none none := by
  have hget : ¬ isGetReply g echo dt = true := by
    rw [isGetReply_iff]
    exact not_and_or.mpr hecho
  constructor
  · rw [contUpdate, if_neg hget, if_neg hdt]
  · exact if_neg fun h => hget h.1
  · exact if_neg hget

end Flags

section Delivery

variable {p : Packet} {echo dt st : Byte} {cont : Option Bool} {err : Option ErrCode} {ch : Option (BitVec 3)}
  {s : State}

theorem exec_pktIn_eq_deliverRow (hdt : dt ∈ rowSet) (h : Resolves s.params.getEcho echo dt st cont err ch) :
    exec (.pktIn p.len (packetReport p echo dt st)) s =
      .next (s.operate fun q b => deliverRow q p echo dt st cont err ch b) := by
  obtain ⟨rfl, rfl, rfl⟩ := h
  have hclass : classifyReport s.params s.draws p.len (packetReport p echo dt st) =
      rowResponse s.params s.draws p.len p.body echo dt st (contUpdate s.params.getEcho echo dt st)
        (errUpdate s.params.getEcho echo dt st) (chUpdate s.params.getEcho echo dt) := if_pos hdt
  simp only [exec, execPktIn, State.operate, hclass, deliverRow]

theorem exec_pktIn_eq_deliverPlain (hdt : dt ∉ rowSet) (h : Resolves s.params.getEcho echo dt st cont err ch) :
    exec (.pktIn p.len (packetReport p echo dt st)) s =
      .next (s.operate fun q b => deliverPlain q p echo dt cont err ch b) := by
  obtain ⟨rfl, rfl, rfl⟩ := h
  have hclass : classifyReport s.params s.draws p.len (packetReport p echo dt st) =
      plainResponse echo dt (contUpdate s.params.getEcho echo dt st) (errUpdate s.params.getEcho echo dt st)
        (chUpdate s.params.getEcho echo dt) := if_neg hdt
  simp only [exec, execPktIn, State.operate, hclass, deliverPlain]

/-- A data_type outside R91's rows is in none of the classifier's sets. -/
theorem not_mem_sets_of_not_classified (h : dt ∉ classifiedTypes) : dt ∉ rowSet ∧ dt ∉ getSet ∧ dt ∉ statusSet := by
  have hrow : rowSet ⊆ classifiedTypes := by decide
  have hget : getSet ⊆ classifiedTypes := by decide
  have hstatus : statusSet ⊆ classifiedTypes := by decide
  exact ⟨fun hm => h (hrow hm), fun hm => h (hget hm), fun hm => h (hstatus hm)⟩

/-- The class of the table does what PKT_IN of the report does. -/
theorem InboundRow.exec_eq {i : Instr} (h : InboundRow s.params.getEcho p echo dt st i) :
    exec (.pktIn p.len (packetReport p echo dt st)) s = exec i s := by
  cases h with
  | get01 hst | get02 hst | get12 hst | get22 hst | get32 hst =>
    exact exec_pktIn_eq_deliverRow (by decide) (resolves_continuing (by decide) hst)
  | get01End | get02End | get12End | get22End | get32End =>
    exact exec_pktIn_eq_deliverRow (by decide) (resolves_terminal (by decide))
  | get01Sto | get02Sto | get12Sto | get22Sto | get32Sto =>
    exact exec_pktIn_eq_deliverRow (by decide) (resolves_timeout (by decide))
  | get03 hst => exact exec_pktIn_eq_deliverPlain (by decide) (resolves_continuing (by decide) hst)
  | get03End => exact exec_pktIn_eq_deliverPlain (by decide) (resolves_terminal (by decide))
  | get03Sto => exact exec_pktIn_eq_deliverPlain (by decide) (resolves_timeout (by decide))
  | row01 he | row02 he | row12 he | row22 he | row32 he =>
    exact exec_pktIn_eq_deliverRow (by decide) (resolves_retain (by decide) (.inl he))
  | status07End | status08End | status0BEnd =>
    exact exec_pktIn_eq_deliverPlain (by decide) (resolves_status (by decide))
  | status07 hst | status08 hst | status0B hst =>
    exact exec_pktIn_eq_deliverPlain (by decide) (resolves_status_continuing (by decide) hst)
  | other hdt =>
    obtain hdt | ⟨rfl, he⟩ := hdt
    · obtain ⟨hrow, hget, hstatus⟩ := not_mem_sets_of_not_classified hdt
      exact exec_pktIn_eq_deliverPlain hrow (resolves_retain hstatus (.inr hget))
    · exact exec_pktIn_eq_deliverPlain (by decide) (resolves_retain (by decide) (.inl he))

/-- A truncated report is not classified (43_sequencer.md R195). -/
theorem exec_pktIn_of_truncated {len : Byte} (hlen : len.toNat < 6) (r : Report) :
    exec (.pktIn len r) s = exec (.inTruncated len r) s := by
  have hdeliver (d : DecodedResponse) (b : Block) : deliver s.params len d b = deliverTruncated s.params b := by
    rw [deliver, deliverTruncated, if_neg (by omega : ¬ 64 < len.toNat)]
    exact congrArg (ite _ _) (if_pos hlen)
  simp only [exec, execPktIn, execInTruncated, State.operate, hdeliver]

end Delivery

/-- Settles O37: a report of 6 or more bytes is a row of R91, a shorter one truncated for both. -/
theorem pktInIsItsInboundClass : Obligations.PktInIsItsInboundClass := by
  intro len r s i hr hlen h
  obtain ⟨-, ⟨h64, -⟩ | ⟨h6, rfl⟩ | ⟨p, echo, dt, st, -, rfl, rfl, hi⟩⟩ := decodeInbound_eq_instr h
  · exact absurd hlen (Nat.not_le.mpr h64)
  · exact exec_pktIn_of_truncated h6 r
  · exact hi.exec_eq

/-! ## Bytes of a report that no operation reads (30_encoding.md R84, R90) -/

theorem byteAt_drop (r : List Byte) (m i : Nat) : byteAt (r.drop m) i = byteAt r (m + i) := by
  simp only [byteAt, List.getD_eq_getElem?_getD, List.getElem?_drop]

/-- Two reports that agree at the offsets the classifier reads are classified alike (41_classifier.md R154). -/
theorem classifyReport_congr {len : Byte} {r r' : Report} (hlen : 6 ≤ len.toNat)
    (h : ∀ i < len.toNat, i = 2 ∨ i = 4 ∨ i = 5 ∨ (6 ≤ i ∧ i ≤ 29) → byteAt r i = byteAt r' i) (p : Params) (n : Nat) :
    classifyReport p n len r = classifyReport p n len r' := by
  have hsample (i : Nat) (h6 : 6 ≤ i) (h29 : i ≤ 29) :
      sampleByte n len.toNat (r.drop Config.sampleOffset) i =
        sampleByte n len.toNat (r'.drop Config.sampleOffset) i := by
    unfold sampleByte
    split_ifs with hi
    · rw [byteAt_drop, byteAt_drop, Config.sampleOffset, Nat.add_sub_cancel' h6]
      exact h i hi (by omega)
    · rfl
  have hrow : sampleRow p.sampleOrder n len.toNat (r.drop Config.sampleOffset) =
      sampleRow p.sampleOrder n len.toNat (r'.drop Config.sampleOffset) := by
    refine List.map_congr_left fun k hk => ?_
    have hk12 : k < 12 := List.mem_range.mp hk
    have hoff : Config.sampleOffset = 6 := rfl
    rw [sampleAt, sampleAt, hsample _ (by omega) (by omega), hsample _ (by omega) (by omega)]
  simp only [classifyReport, rowResponse, hrow, h 2 (by omega) (by omega), h 4 (by omega) (by omega),
    h 5 (by omega) (by omega)]

/-- Settles O25: a report that is classified has 6 or more bytes, and the classification is all that is read of it. -/
theorem unreadBytesDoNotMatter : Obligations.UnreadBytesDoNotMatter := by
  intro len r r' s _ _ h
  by_cases hlen : len.toNat < 6
  · refine ⟨(exec_pktIn_of_truncated hlen r).trans (exec_pktIn_of_truncated hlen r').symm, ?_⟩
    have hclassify (r : Report) :
        exec (.classify len r) s = .next (s.operate fun _ b => raiseError .host .truncatedResponse b) := by
      have hlong : ¬ 64 < len.toNat := by omega
      have hshort : len.toNat < Config.minResponseBytes := hlen
      simp only [exec, execClassify, hlong, hshort, if_true, if_false]
    rw [hclassify, hclassify]
  · have hclass := classifyReport_congr (Nat.not_lt.mp hlen) h s.params s.draws
    constructor
    · simp only [exec, execPktIn, State.operate, hclass]
    · simp only [exec, execClassify, classifyOne, State.operate, hclass]

/-! ## The CLASSIFY record (30_encoding.md R83) -/

/-- A sample of the record, most significant byte first; beyond the samples the record holds zeros. -/
theorem samplesBytes_pair (samples : List Sample) (m k : Nat) :
    (byteAt (samples.flatMap bytes16 ++ List.replicate m 0) (2 * k)).toNat * 256 +
      (byteAt (samples.flatMap bytes16 ++ List.replicate m 0) (2 * k + 1)).toNat = (samples.getD k 0).toNat := by
  induction samples generalizing k with
  | nil =>
    have hzero (i : Nat) : byteAt (List.replicate m 0) i = 0 := by
      rw [byteAt, List.getD_eq_getElem?_getD, List.getElem?_replicate]
      split <;> rfl
    rw [List.flatMap_nil, List.nil_append, hzero, hzero]
    rfl
  | cons v samples ih =>
    cases k with
    | zero =>
      change (v.extractLsb' 8 8).toNat * 256 + (v.extractLsb' 0 8).toNat = v.toNat
      simp only [BitVec.extractLsb'_toNat, Nat.shiftRight_eq_div_pow]
      omega
    | succ k => exact ih k

theorem length_flatMap_bytes16 (samples : List Sample) : (samples.flatMap bytes16).length = 2 * samples.length := by
  induction samples with
  | nil => rfl
  | cons v samples ih =>
    rw [List.flatMap_cons, List.length_append, ih, List.length_cons]
    change 2 + 2 * samples.length = _
    omega

theorem length_samplesBytes {samples : List Sample} (h : samples.length ≤ 12) : (samplesBytes samples).length = 24 := by
  rw [samplesBytes, List.length_append, length_flatMap_bytes16, List.length_replicate, Config.samplesPerPacket]
  omega

/-- The record's first nine bytes, and after them the samples. -/
theorem decodedRecord_eq (d : DecodedResponse) : decodedRecord d =
    d.echo :: d.dt :: contByte d.contUpd :: channelByte d.chUpd :: errByte d.err ::
      (if d.row.isSome then 1 else 0) :: d.row.getD 0 :: BitVec.ofNat 8 d.samples.length :: samplesBytes d.samples := by
  cases hrow : d.row <;> simp [decodedRecord, hrow, rowBytes]

theorem classifyReport_err (p : Params) (n : Nat) (len : Byte) (r : Report) :
    (classifyReport p n len r).err = none ∨ (classifyReport p n len r).err = some .sensorTimeout := by
  have herr : (classifyReport p n len r).err = errUpdate p.getEcho (byteAt r 2) (byteAt r 4) (byteAt r 5) := by
    simp only [classifyReport]
    split <;> rfl
  rw [herr, errUpdate]
  split_ifs
  · exact .inr rfl
  · exact .inl rfl

theorem classifyReport_samples_length (p : Params) (n : Nat) (len : Byte) (r : Report) :
    (classifyReport p n len r).samples.length ≤ 12 := by
  simp only [classifyReport]
  split
  · simp [rowResponse, sampleRow, Config.samplesPerPacket]
  · exact Nat.zero_le _

theorem exec_classify_of_legal {len : Byte} (h6 : 6 ≤ len.toNat) (h64 : len.toNat ≤ 64) (r : Report) (s : State) :
    exec (.classify len r) s = .next (s.operate fun p b => classifyOne p len r b) := by
  have hlong : ¬ 64 < len.toNat := Nat.not_lt.mpr h64
  have hshort : ¬ len.toNat < Config.minResponseBytes := Nat.not_lt.mpr h6
  simp only [exec, execClassify, hlong, hshort, if_false]

/-- Settles O24: byte by byte of the record, with the samples from byte 9 on. -/
theorem classifyRecordLayout : Obligations.ClassifyRecordLayout := by
  intro len r s t d bytes h6 h64 hd ht hout
  cases (exec_classify_of_legal h6 h64 r s).symm.trans ht
  obtain rfl : 0 :: decodedRecord d = bytes := by
    subst hd
    cases hout
    rfl
  have hsamples : d.samples.length ≤ 12 := hd ▸ classifyReport_samples_length ..
  have herr : errByte d.err = if d.err = some .sensorTimeout then 3 else 0 := by
    obtain h | h : d.err = none ∨ d.err = some .sensorTimeout := hd ▸ classifyReport_err ..
    · rw [h]; rfl
    · rw [h]; rfl
  rw [decodedRecord_eq]
  refine ⟨?_, rfl, rfl, rfl, ?_, ?_, herr, rfl, rfl, toNat_count (by omega), fun k _ => ?_⟩
  · simp only [List.length_cons, length_samplesBytes hsamples]
  · change contByte d.contUpd = _
    obtain _ | _ | _ := d.contUpd <;> rfl
  · change (channelByte d.chUpd).toNat = _
    cases d.chUpd with
    | none => rfl
    | some c => exact BitVec.toNat_setWidth_of_le (by decide)
  · rw [Nat.add_comm 9, Nat.add_comm 10]
    exact samplesBytes_pair d.samples _ k

/-! ## Outbound reports leave the block as the framer builds them (30_encoding.md R86, R88, R89) -/

theorem buildFramed_of_framed {p : Params} (hp : p.protocol = .framed) (cmd dt : Byte) {payload : List Byte}
    (hlen : payload.length ≤ 57) : buildFramed p cmd dt payload = .ok (framedReport cmd dt payload) :=
  (if_neg (not_not.mpr hp)).trans (if_neg (Nat.not_lt.mpr hlen))

theorem buildFramed_of_simple {p : Params} (hp : p.protocol = .simple) (cmd dt : Byte) (payload : List Byte) :
    buildFramed p cmd dt payload = .error .protocolMismatch := if_pos (by rw [hp]; decide)

theorem buildSimple_of_simple {p : Params} (hp : p.protocol = .simple) (opcode : Byte) {args : List Byte}
    (hlen : args.length ≤ 63) : buildSimple p opcode args = .ok (simpleReport opcode args) :=
  (if_neg (not_not.mpr hp)).trans (if_neg (Nat.not_lt.mpr hlen))

theorem buildSimple_of_framed {p : Params} (hp : p.protocol = .framed) (opcode : Byte) (args : List Byte) :
    buildSimple p opcode args = .error .protocolMismatch := if_pos (by rw [hp]; decide)

/-- Settles O19: ENC_ and RPT_ answer the one report that the framer builds, and under the other PROTOCOL its error. -/
theorem outboundReportIsTheFramers : Obligations.OutboundReportIsTheFramers := by
  refine fun s => ⟨fun cmd dt payload => ⟨fun hp hlen => ?_, fun hp => ?_⟩,
    fun opcode args => ⟨fun hp hlen => ?_, fun hp => ?_⟩⟩
  · refine ⟨framedReport cmd dt payload, ?_, exec_rptFramed_of_report hp hlen rfl⟩
    simp only [exec, execEncFramed, State.operate, buildFramed_of_framed hp cmd dt hlen]
    rfl
  · simp only [exec, execRptFramed, State.operate, buildFramed_of_simple hp cmd dt payload]
    rfl
  · refine ⟨simpleReport opcode args, ?_, exec_rptSimple_of_report hp hlen rfl⟩
    simp only [exec, execEncSimple, State.operate, buildSimple_of_simple hp opcode hlen]
    rfl
  · simp only [exec, execRptSimple, State.operate, buildSimple_of_framed hp opcode args]
    rfl

end Sys2Proof.Machine
end

section
/-! PROOF. 40_framer.md: the checksum (R110, R111), what ENC_FRAMED, ENC_SIMPLE and ENC_CMD build (R113..R118), the
validator's verdicts (R121) and the round trip between them (R122). -/

namespace Sys2Proof.Machine

/-! ## What the operations of the framer answer -/

/-- The result record of a framer operation (30_encoding.md R81). -/
def reportRecord : Except ErrCode Report → List Byte
  | .ok r => 0 :: r
  | .error e => [errCode e]

theorem respondReport_eq (r : Except ErrCode Report) (b : Block) :
    respondReport r b = respond .host (reportRecord r) b := by
  cases r <;> rfl

section Answers

variable (s : State)

theorem exec_encSimple (opcode : Byte) (args : List Byte) : exec (.encSimple opcode args) s =
    .next { s with output := some (.record .host (reportRecord (buildSimple s.params opcode args))) } :=
  congrArg (fun b => Host.Outcome.next (State.mk b s.params)) (respondReport_eq _ s.toBlock)

theorem exec_encFramed (cmd dt : Byte) (payload : List Byte) : exec (.encFramed cmd dt payload) s =
    .next { s with output := some (.record .host (reportRecord (buildFramed s.params cmd dt payload))) } :=
  congrArg (fun b => Host.Outcome.next (State.mk b s.params)) (respondReport_eq _ s.toBlock)

theorem exec_encCmd (kind : Byte) (arg : BitVec 24) : exec (.encCmd kind arg) s =
    .next { s with output := some (.record .host (reportRecord (buildCommand s.params kind arg))) } :=
  congrArg (fun b => Host.Outcome.next (State.mk b s.params)) (respondReport_eq _ s.toBlock)

theorem exec_chkValidate (r : Report) : exec (.chkValidate r) s =
    .next { s with output := some (.record .host [0, verdictCode (validate r)]) } := rfl

end Answers

theorem buildSimple_of_ne {p : Params} (hp : p.protocol ≠ .simple) (opcode : Byte) (args : List Byte) :
    buildSimple p opcode args = .error .protocolMismatch := if_pos hp

theorem buildFramed_of_ne {p : Params} (hp : p.protocol ≠ .framed) (cmd dt : Byte) (payload : List Byte) :
    buildFramed p cmd dt payload = .error .protocolMismatch := if_pos hp

theorem buildSimple_of_tooLarge {p : Params} (hp : p.protocol = .simple) (opcode : Byte) {args : List Byte}
    (h : 63 < args.length) : buildSimple p opcode args = .error .payloadTooLarge :=
  (if_neg (not_not.mpr hp)).trans (if_pos h)

theorem buildFramed_of_tooLarge {p : Params} (hp : p.protocol = .framed) (cmd dt : Byte) {payload : List Byte}
    (h : 57 < payload.length) : buildFramed p cmd dt payload = .error .payloadTooLarge :=
  (if_neg (not_not.mpr hp)).trans (if_pos h)

/-! ## The round trip (40_framer.md R122) -/

theorem verdictCode_eq_zero_iff (v : Verdict) : verdictCode v = 0 ↔ v = .ok := by
  cases v <;> decide

theorem padIsZero_of_byteAt {r : Report} (hlen : r.length = 64)
    (h : ∀ i, 6 + (byteAt r 2).toNat ≤ i → i < 64 → byteAt r i = 0) : padIsZero r = true := by
  refine List.all_eq_true.mpr (List.forall_mem_iff_getElem.mpr fun j hj => ?_)
  rw [List.length_drop] at hj
  rw [List.getElem_drop, ← List.getD_eq_getElem r 0]
  exact beq_iff_eq.mpr (h _ (Nat.le_add_right ..) (by omega))

/-- Settles O18: the validator accepts what the framer builds, and what it accepts with zero pad is the framed report of
its own command, data_type and payload. -/
theorem framedRoundTrip : Obligations.FramedRoundTrip := by
  constructor
  · intro cmd dt payload s t r hp hlen ht hr
    rw [exec_encFramed, buildFramed_of_framed hp cmd dt hlen] at ht
    cases ht
    cases hr
    exact ⟨_, exec_chkValidate .., by rw [validate_framedReport cmd dt hlen]; rfl⟩
  · intro r s t hp hlen ht hout hpad
    rw [exec_chkValidate] at ht
    cases ht
    have hcode : verdictCode (validate r) = 0 := by simpa using hout
    obtain ⟨hpl, hr⟩ := framedReport_of_validate hlen ((verdictCode_eq_zero_iff _).mp hcode)
      (padIsZero_of_byteAt hlen hpad)
    have hbuild := (buildFramed_of_framed hp (byteAt r 1) (byteAt r 3) hpl).trans (congrArg Except.ok hr)
    exact (exec_encFramed ..).trans (by rw [← payloadOf, hbuild]; rfl)

/-! ## The checksum (40_framer.md R110, R111) -/

theorem toNat_foldl_add (s : List Byte) (a : Byte) :
    (s.foldl (· + ·) a).toNat = (a.toNat + (s.map BitVec.toNat).sum) % 256 := by
  induction s generalizing a with
  | nil => exact (Nat.mod_eq_of_lt a.isLt).symm
  | cons x s ih =>
    rw [List.foldl_cons, ih, BitVec.toNat_add, List.map_cons, List.sum_cons, ← Nat.add_assoc]
    exact Nat.mod_add_mod ..

theorem toNat_byteSum (s : List Byte) : (byteSum s).toNat = (s.map BitVec.toNat).sum % 256 :=
  (toNat_foldl_add s 0).trans (by rw [BitVec.ofNat_eq_ofNat, BitVec.toNat_ofNat, Nat.zero_mod, Nat.zero_add])

theorem toNat_chk (s : List Byte) : (chk s).toNat =
    if (s.map BitVec.toNat).sum % 256 = 0x17 then 0x18 else (s.map BitVec.toNat).sum % 256 := by
  have hsum : byteSum s = Config.sentinel ↔ (s.map BitVec.toNat).sum % 256 = 0x17 := by
    rw [← toNat_byteSum]
    exact BitVec.toNat_inj.symm
  simp only [chk, hsum, apply_ite BitVec.toNat, toNat_byteSum]
  rfl

/-- Settles O13: the properties of R111 are read off the number that R110 gives. -/
theorem checksumRule : Obligations.ChecksumRule := by
  refine ⟨toNat_chk, fun s h => ?_, fun s => ?_, rfl⟩
  · have hchk := toNat_chk s
    rw [h] at hchk
    split_ifs at hchk with hsum
    · exact absurd hchk (by decide)
    · exact hsum hchk.symm
  · rw [← BitVec.toNat_inj, toNat_chk]
    change (if _ then 0x18 else _) = 0x18 ↔ _
    split_ifs with hsum
    · exact iff_of_true rfl (.inl hsum)
    · exact (or_iff_right hsum).symm

/-! ## The bytes of the reports (30_encoding.md R86, R88) -/

theorem getElem?_eq_some_byteAt {r : List Byte} {i : Nat} (h : i < r.length) : r[i]? = some (byteAt r i) := by
  rw [byteAt, List.getD_eq_getElem _ _ h, List.getElem?_eq_getElem h]

theorem byteAt_replicate_zero (n i : Nat) : byteAt (List.replicate n 0) i = 0 := by
  rw [byteAt, List.getD_eq_getElem?_getD, List.getElem?_replicate]
  split <;> rfl

theorem getElem?_simpleReport_args (opcode : Byte) {args : List Byte} {j : Nat} (hj : j < args.length) :
    (simpleReport opcode args)[1 + j]? = args[j]? := by
  rw [Nat.add_comm]
  exact List.getElem?_append_left (Nat.succ_lt_succ hj)

theorem byteAt_simpleReport_pad (opcode : Byte) (args : List Byte) (k : Nat) :
    byteAt (simpleReport opcode args) (args.length + 1 + k) = 0 :=
  (byteAt_append_add (opcode :: args) _ k).trans (byteAt_replicate_zero ..)

theorem getElem?_framedReport_payload (cmd dt : Byte) {payload : List Byte} {j : Nat} (hj : j < payload.length) :
    (framedReport cmd dt payload)[4 + j]? = payload[j]? := by
  rw [framedReport_eq_append, Nat.add_comm]
  exact List.getElem?_append_left (Nat.add_lt_add_right hj 4)

theorem byteAt_framedReport_pad (cmd dt : Byte) (payload : List Byte) (k : Nat) :
    byteAt (framedReport cmd dt payload) (4 + payload.length + (k + 3)) = 0 :=
  (byteAt_framedReport_trailer cmd dt (k + 3)).trans (byteAt_replicate_zero ..)

/-- Settles O14: the two errors of R116, and the simple report as the opcode, the parameters and the pad. -/
theorem encSimpleBuildsReport : Obligations.EncSimpleBuildsReport := by
  refine fun opcode args s => ⟨fun _ _ hm => (Operation.encSimple opcode args hm).decodeTransaction_eq,
    fun hp => ?_, fun hp hm => ?_, fun hp hm => ?_⟩
  · rw [exec_encSimple, buildSimple_of_ne hp]
    rfl
  · rw [exec_encSimple, buildSimple_of_tooLarge hp opcode hm]
    rfl
  · have hlen : (simpleReport opcode args).length = 64 := simpleReport_length opcode hm
    refine ⟨simpleReport opcode args, ?_, hlen, rfl, fun j => getElem?_simpleReport_args opcode, fun i hi hi' => ?_⟩
    · rw [exec_encSimple, buildSimple_of_simple hp opcode hm]
      rfl
    · obtain ⟨k, rfl⟩ := Nat.exists_eq_add_of_le hi
      rw [getElem?_eq_some_byteAt (by omega), byteAt_simpleReport_pad]

/-- Settles O15: the two errors of R113, and the framed report as its header, the payload and the trailer. -/
theorem encFramedBuildsReport : Obligations.EncFramedBuildsReport := by
  refine fun cmd dt payload s => ⟨fun _ _ hn => (Operation.encFramed cmd dt payload hn).decodeTransaction_eq,
    fun hp => ?_, fun hp hn => ?_, fun hp hn => ?_⟩
  · rw [exec_encFramed, buildFramed_of_ne hp]
    rfl
  · rw [exec_encFramed, buildFramed_of_tooLarge hp cmd dt hn]
    rfl
  · have hlen : (framedReport cmd dt payload).length = 64 := framedReport_length cmd dt hn
    have htrailer (k : Nat) (hk : 4 + payload.length + k < 64) :=
      (getElem?_eq_some_byteAt (hlen ▸ hk)).trans (congrArg some (byteAt_framedReport_trailer cmd dt k))
    refine ⟨framedReport cmd dt payload, ?_, hlen, rfl, rfl, toNat_byteAt_framedReport_two cmd dt hn, rfl,
      fun j => getElem?_framedReport_payload cmd dt, ?_, ?_, ?_, fun i hi hi' => ?_⟩
    · rw [exec_encFramed, buildFramed_of_framed hp cmd dt hn]
      rfl
    · rw [slice_framedReport_body]
      exact htrailer 0 (by omega)
    · rw [show 5 + payload.length = 4 + payload.length + 1 by omega]
      exact htrailer 1 (by omega)
    · rw [show 6 + payload.length = 4 + payload.length + 2 by omega]
      exact htrailer 2 (by omega)
    · obtain ⟨k, rfl⟩ := Nat.exists_eq_add_of_le hi
      rw [show 7 + payload.length + k = 4 + payload.length + (k + 3) by omega] at hi' ⊢
      rw [getElem?_eq_some_byteAt (hlen ▸ hi'), byteAt_framedReport_pad]

/-! ## ENC_CMD (40_framer.md R117, R118) -/

theorem toNat_append_byte {n : Nat} (x : BitVec n) (b : Byte) : (x ++ b).toNat = x.toNat * 256 + b.toNat := by
  rw [BitVec.toNat_append, ← Nat.shiftLeft_add_eq_or_of_lt b.isLt, Nat.shiftLeft_eq]

theorem toNat_be24 (a b c : Byte) : (be24 a b c).toNat = a.toNat * 65536 + b.toNat * 256 + c.toNat := by
  rw [be24, toNat_append_byte, toNat_append_byte]
  omega

section Commands

variable {kind : Byte} {arg : BitVec 24} {c : Command}

/-! What `commandOf` answers for each kind of 30_encoding.md R85. -/

theorem commandOf_zero : commandOf 0 arg =
    if 1 ≤ arg.toNat ∧ arg.toNat ≤ 4 then some (.selectChannel (BitVec.ofNat 3 arg.toNat)) else none := by
  rw [BitVec.ofNat_toNat]
  rfl

theorem commandOf_one : commandOf 1 arg =
    if 1 ≤ arg.toNat ∧ arg.toNat ≤ 66000 then some (.setIntegrationTime (BitVec.ofNat 17 arg.toNat)) else none := by
  rw [BitVec.ofNat_toNat]
  rfl

theorem commandOf_two : commandOf 2 arg =
    if arg.toNat ≤ 1 then some (.setGainMode (BitVec.ofNat 1 arg.toNat)) else none := by
  rw [BitVec.ofNat_toNat]
  rfl

theorem commandOf_three : commandOf 3 arg =
    if 1 ≤ arg.toNat ∧ arg.toNat ≤ 4 then some (.capture (BitVec.ofNat 3 arg.toNat)) else none := by
  rw [BitVec.ofNat_toNat]
  rfl

theorem commandOf_of_three_lt (h : 3 < kind.toNat) : commandOf kind arg = none := by
  have hne (k : Byte) (hle : k.toNat ≤ 3) : kind ≠ k := fun he => absurd h (Nat.not_lt.mpr (he ▸ hle))
  rw [commandOf, if_neg (hne 0 (by decide)), if_neg (hne 1 (by decide)), if_neg (hne 2 (by decide)),
    if_neg (hne 3 (by decide))]

/-- The commands that are legal, with their argument ranges (40_framer.md R118). -/
theorem commandOf_of_inRange
    (h : (kind = 0 ∧ 1 ≤ arg.toNat ∧ arg.toNat ≤ 4 ∧ c = .selectChannel (BitVec.ofNat 3 arg.toNat)) ∨
      (kind = 1 ∧ 1 ≤ arg.toNat ∧ arg.toNat ≤ 66000 ∧ c = .setIntegrationTime (BitVec.ofNat 17 arg.toNat)) ∨
      (kind = 2 ∧ arg.toNat ≤ 1 ∧ c = .setGainMode (BitVec.ofNat 1 arg.toNat)) ∨
      (kind = 3 ∧ 1 ≤ arg.toNat ∧ arg.toNat ≤ 4 ∧ c = .capture (BitVec.ofNat 3 arg.toNat))) :
    commandOf kind arg = some c := by
  obtain ⟨rfl, h1, h4, rfl⟩ | ⟨rfl, h1, hmax, rfl⟩ | ⟨rfl, h1, rfl⟩ | ⟨rfl, h1, h4, rfl⟩ := h
  · exact commandOf_zero.trans (if_pos ⟨h1, h4⟩)
  · exact commandOf_one.trans (if_pos ⟨h1, hmax⟩)
  · exact commandOf_two.trans (if_pos h1)
  · exact commandOf_three.trans (if_pos ⟨h1, h4⟩)

theorem commandOf_of_not_inRange
    (h : 3 < kind.toNat ∨ ((kind = 0 ∨ kind = 3) ∧ (arg.toNat = 0 ∨ 4 < arg.toNat)) ∨
      (kind = 1 ∧ (arg.toNat = 0 ∨ 66000 < arg.toNat)) ∨ (kind = 2 ∧ 1 < arg.toNat)) :
    commandOf kind arg = none := by
  obtain hk | ⟨rfl | rfl, ha⟩ | ⟨rfl, ha⟩ | ⟨rfl, ha⟩ := h
  · exact commandOf_of_three_lt hk
  · exact commandOf_zero.trans (if_neg (by omega))
  · exact commandOf_three.trans (if_neg (by omega))
  · exact commandOf_one.trans (if_neg (by omega))
  · exact commandOf_two.trans (if_neg (by omega))

theorem buildCommand_of_commandOf (p : Params) (h : commandOf kind arg = some c) :
    buildCommand p kind arg = encodeCommand p c := by
  rw [buildCommand, h]

end Commands

theorem encodeCommand_of_framed {p : Params} (hp : p.protocol = .framed) (c : Command) : encodeCommand p c =
    buildFramed p (semFramedOf p c).cmd (semFramedOf p c).dt (semFramedOf p c).payload := by
  rw [encodeCommand, hp]

theorem encodeCommand_of_simple {p : Params} (hp : p.protocol = .simple) (c : Command) : encodeCommand p c =
    buildSimple p (semSimpleOf p c).opcode (semSimpleOf p c).args := by
  rw [encodeCommand, hp]

/-- Settles O16: ENC_CMD answers the record of `buildCommand`, whose command is legal or none. -/
theorem encCmdEncodesCommand : Obligations.EncCmdEncodesCommand := by
  refine ⟨fun kind a b c _ _ => ⟨be24 a b c, ?_, toNat_be24 a b c⟩, fun kind arg s =>
    ⟨⟨_, exec_encCmd s kind arg⟩, fun c hc => ⟨fun hp => ?_, fun hp => ?_⟩, fun h => ?_⟩⟩
  · rw [← bytes24_be24 a b c]
    exact (Operation.encCmd kind (be24 a b c)).decodeTransaction_eq
  · rw [exec_encCmd, exec_encFramed, buildCommand_of_commandOf _ (commandOf_of_inRange hc), encodeCommand_of_framed hp]
  · rw [exec_encCmd, exec_encSimple, buildCommand_of_commandOf _ (commandOf_of_inRange hc), encodeCommand_of_simple hp]
  · rw [exec_encCmd, buildCommand, commandOf_of_not_inRange h]
    rfl

/-! ## The verdicts (40_framer.md R121) -/

/-- The verdict by the length byte itself, which is `n + 1` wherever R121 goes on to read past it. -/
theorem verdictCode_validate (r : Report) : verdictCode (validate r) =
    if byteAt r 0 ≠ 0xAA then 1
    else if (byteAt r 2).toNat < 1 ∨ 58 < (byteAt r 2).toNat then 2
    else if byteAt r (3 + (byteAt r 2).toNat) ≠ chk (slice r 1 ((byteAt r 2).toNat + 2)) then 3
    else if byteAt r (4 + (byteAt r 2).toNat) ≠ 0x17 ∨ byteAt r (5 + (byteAt r 2).toNat) ≠ 0x17 then 4
    else 0 := by
  simp only [validate, apply_ite verdictCode]
  refine if_congr Iff.rfl rfl ?_
  by_cases hrange : (byteAt r 2).toNat < 1 ∨ 58 < (byteAt r 2).toNat
  · rw [if_pos hrange, if_pos hrange]
    rfl
  · obtain ⟨n, hn⟩ : ∃ n, (byteAt r 2).toNat = n + 1 := Nat.exists_eq_add_of_le' (by omega)
    rw [if_neg hrange, if_neg hrange, hn, Nat.add_sub_cancel, show 3 + (n + 1) = 4 + n by omega,
      show 4 + (n + 1) = 5 + n by omega, show 5 + (n + 1) = 6 + n by omega]
    rfl

/-- Settles O17: the answer is the verdict's number, in the order of the validator's checks. -/
theorem chkValidateVerdicts : Obligations.ChkValidateVerdicts := by
  refine fun r s hlen => ⟨fun _ _ => (Operation.chkValidate r hlen).decodeTransaction_eq, ?_⟩
  rw [exec_chkValidate, verdictCode_validate]

end Sys2Proof.Machine
end

section
/-! PROOF. 41_classifier.md: what the classifier resolves (R144..R148), the samples it extracts (R149), CLASSIFY (R151), and
what each class of packet does to a capture in STREAMING (43_sequencer.md R196, R197, R203). -/

namespace Sys2Proof.Machine

/-! ## The classification of a report -/

section Classification

variable (p : Params) (n : Nat) (len : Byte) {r : Report} {cont : Option Bool} {err : Option ErrCode}
  {ch : Option (BitVec 3)}

theorem classifyReport_of_mem_rowSet (h : byteAt r 4 ∈ rowSet) : classifyReport p n len r =
    rowResponse p n len (r.drop Config.sampleOffset) (byteAt r 2) (byteAt r 4) (byteAt r 5)
      (contUpdate p.getEcho (byteAt r 2) (byteAt r 4) (byteAt r 5))
      (errUpdate p.getEcho (byteAt r 2) (byteAt r 4) (byteAt r 5)) (chUpdate p.getEcho (byteAt r 2) (byteAt r 4)) :=
  if_pos h

theorem classifyReport_of_not_mem_rowSet (h : byteAt r 4 ∉ rowSet) : classifyReport p n len r =
    plainResponse (byteAt r 2) (byteAt r 4) (contUpdate p.getEcho (byteAt r 2) (byteAt r 4) (byteAt r 5))
      (errUpdate p.getEcho (byteAt r 2) (byteAt r 4) (byteAt r 5)) (chUpdate p.getEcho (byteAt r 2) (byteAt r 4)) :=
  if_neg h

theorem classifyReport_echo (r : Report) : (classifyReport p n len r).echo = byteAt r 2 := by
  by_cases h : byteAt r 4 ∈ rowSet
  · rw [classifyReport_of_mem_rowSet p n len h]; rfl
  · rw [classifyReport_of_not_mem_rowSet p n len h]; rfl

/-- The three updates of a classification are those its bytes b[2], b[4] and b[5] resolve to. -/
theorem Resolves.classifyReport_eq (h : Resolves p.getEcho (byteAt r 2) (byteAt r 4) (byteAt r 5) cont err ch) :
    (classifyReport p n len r).contUpd = cont ∧ (classifyReport p n len r).err = err ∧
      (classifyReport p n len r).chUpd = ch := by
  obtain ⟨rfl, rfl, rfl⟩ := h
  by_cases h : byteAt r 4 ∈ rowSet
  · rw [classifyReport_of_mem_rowSet p n len h]; exact ⟨rfl, rfl, rfl⟩
  · rw [classifyReport_of_not_mem_rowSet p n len h]; exact ⟨rfl, rfl, rfl⟩

end Classification

/-- What a get reply resolves to, by its status byte alone (41_classifier.md R144). -/
theorem resolves_getReply {g dt : Byte} (hdt : dt ∈ getSet) (st : Byte) :
    Resolves g g dt st (some (decide (st ≠ 0x0B ∧ st ≠ 0xF1))) (if st = 0xF1 then some .sensorTimeout else none)
      (some (((dt >>> 4) + 1).setWidth 3)) := by
  by_cases hend : st = 0x0B
  · subst hend
    exact resolves_terminal hdt
  by_cases hsto : st = 0xF1
  · subst hsto
    exact resolves_timeout hdt
  · rw [decide_eq_true ⟨hend, hsto⟩, if_neg hsto]
    exact resolves_continuing hdt (continuingStatus_iff.mpr ⟨hend, hsto⟩)

/-- The channel of a get reply: the quadrant plus 1 (41_classifier.md R145). -/
theorem toNat_channel_of_getSet :
    ∀ dt ∈ getSet, (((dt >>> 4) + 1).setWidth 3).toNat = dt.toNat / 16 + 1 := by
  decide

/-- Settles O22: the sets of R142 make R143's three cases, and R148 is the classifier's one split. -/
theorem classifierCases : Obligations.ClassifierCases := by
  rintro p n len r d dt st rfl rfl rfl
  refine ⟨⟨classifyReport_echo p n len r, classifyReport_dt p n len r⟩, fun hecho hdt => ?_, fun hdt => ?_,
    fun hecho hdt => ?_, fun hdt => ?_, fun hdt => ?_⟩
  · have hget := resolves_getReply (g := p.getEcho) hdt (byteAt r 5)
    nth_rw 2 [← hecho] at hget
    obtain ⟨hcont, herr, hch⟩ := hget.classifyReport_eq p n len
    exact ⟨hcont, herr, _, hch, toNat_channel_of_getSet _ hdt⟩
  · exact (resolves_status hdt).classifyReport_eq p n len
  · exact (resolves_retain hdt hecho).classifyReport_eq p n len
  · rw [classifyReport_of_mem_rowSet p n len hdt]; rfl
  · rw [classifyReport_of_not_mem_rowSet p n len hdt]; rfl

/-! ## The samples (41_classifier.md R149, 20_memory.md R64) -/

theorem toNat_samplePair (order : SampleOrder) (x0 x1 : Byte) : (samplePair order x0 x1).toNat =
    match order with
    | .hiFirst => x0.toNat * 256 + x1.toNat
    | .loFirst => x1.toNat * 256 + x0.toNat := by
  cases order with
  | hiFirst => exact toNat_append_byte x0 x1
  | loFirst => exact toNat_append_byte x1 x0

theorem sampleRow_length (order : SampleOrder) (n len : Nat) (body : List Byte) :
    (sampleRow order n len body).length = 12 := by
  rw [sampleRow, List.length_map, List.length_range, Config.samplesPerPacket]

theorem sampleRow_getElem? (order : SampleOrder) (n len : Nat) (body : List Byte) {k : Nat} (hk : k < 12) :
    (sampleRow order n len body)[k]? = some (sampleAt order n len body k) := by
  have hrange : (List.range Config.samplesPerPacket)[k]? = some k := List.getElem?_range hk
  rw [sampleRow, List.getElem?_map, hrange, Option.map_some]

theorem sampleRow_getD (order : SampleOrder) (n len : Nat) (body : List Byte) {k : Nat} (hk : k < 12) :
    (sampleRow order n len body).getD k 0 = sampleAt order n len body k := by
  rw [List.getD_eq_getElem?_getD, sampleRow_getElem? order n len body hk, Option.getD_some]

/-- A sample byte of a report: its own byte below L, and a draw from there on. -/
theorem sampleByte_report (n len : Nat) (r : Report) (j : Nat) :
    sampleByte n len (r.drop Config.sampleOffset) (6 + j) =
      if 6 + j < len then byteAt r (6 + j) else Config.drawByte n (6 + j) := by
  rw [sampleByte, byteAt_drop, Config.sampleOffset, Nat.add_sub_cancel_left]

/-- Settles O23: sample k is the pair of sample bytes at the offsets 6 + 2k and 7 + 2k. -/
theorem sampleExtraction : Obligations.SampleExtraction := by
  refine fun p n len r => ⟨fun hdt => ?_, fun hdt => ?_⟩
  · rw [classifyReport_of_not_mem_rowSet p n len hdt]; rfl
  · rw [classifyReport_of_mem_rowSet p n len hdt]
    refine ⟨sampleRow_length .., fun k hk x0 x1 hx0 hx1 => ⟨_, sampleRow_getElem? _ _ _ _ hk, ?_⟩⟩
    rw [← sampleByte_report] at hx0
    rw [show 7 + 2 * k = 6 + (2 * k + 1) by omega, ← sampleByte_report] at hx1
    rw [hx0, hx1]
    exact toNat_samplePair ..

/-! ## CLASSIFY (41_classifier.md R151) -/

theorem exec_classify_of_long {len : Byte} (h64 : 64 < len.toNat) (r : Report) (s : State) :
    exec (.classify len r) s = .next { s with output := some (.record .host [8]) } := by
  simp only [exec, execClassify, h64, if_true]
  rfl

theorem exec_classify_of_truncated {len : Byte} (h6 : len.toNat < 6) (r : Report) (s : State) :
    exec (.classify len r) s = .next { s with output := some (.record .host [2]) } := by
  have hlong : ¬ 64 < len.toNat := by omega
  have hshort : len.toNat < Config.minResponseBytes := h6
  simp only [exec, execClassify, hlong, hshort, if_true, if_false]
  rfl

/-- Settles O21: R151's checks of L in order, and the classification of a legal length. -/
theorem classifyWritesOnlyActiveChannel : Obligations.ClassifyWritesOnlyActiveChannel :=
  fun _ r s => ⟨fun h64 => exec_classify_of_long h64 r s, fun h6 => exec_classify_of_truncated h6 r s,
    fun h6 h64 => exec_classify_of_legal h6 h64 r s⟩

/-! ## A classified packet in STREAMING (43_sequencer.md R196) -/

section Application

variable {d : DecodedResponse} {b : Block}

theorem applyPacket_of_sensorTimeout (herr : d.err = some .sensorTimeout) :
    applyPacket d b = respond .transport [3, 4] (failCapture .sensorTimeout (countPacket d b)) := by
  obtain ⟨-, h⟩ | ⟨hne, -⟩ | ⟨hne, -⟩ | ⟨hne, -⟩ := applyPacket_cases d b
  · exact h
  all_goals exact absurd herr hne

theorem applyPacket_of_terminal (herr : d.err = none) (hcont : d.contUpd.getD b.cont = false) :
    applyPacket d b = respond .transport [0, 3] (completeCapture .terminal (countPacket d b)) := by
  obtain ⟨hsto, -⟩ | ⟨-, -, h⟩ | ⟨-, hc, -⟩ | ⟨-, hc, -⟩ := applyPacket_cases d b
  · cases herr.symm.trans hsto
  · exact h
  all_goals cases hcont.symm.trans hc

theorem applyPacket_of_continuing_at_cap (herr : d.err = none) (hcont : d.contUpd.getD b.cont = true)
    (hcap : b.cap.toNat ≤ b.attempts.toNat + 1) :
    applyPacket d b = respond .transport [0, 3] (completeCapture .cap (consumeRow d (countPacket d b))) := by
  obtain ⟨hsto, -⟩ | ⟨-, hc, -⟩ | ⟨-, -, -, h⟩ | ⟨-, -, hlt, -⟩ := applyPacket_cases d b
  · cases herr.symm.trans hsto
  · cases hcont.symm.trans hc
  · exact h
  · exact absurd hcap (Nat.not_le.mpr hlt)

theorem applyPacket_of_continuing_below_cap (herr : d.err = none) (hcont : d.contUpd.getD b.cont = true)
    (hcap : b.attempts.toNat + 1 < b.cap.toNat) :
    applyPacket d b = respond .transport [0, phaseCode b.phase] (consumeRow d (countPacket d b)) := by
  obtain ⟨hsto, -⟩ | ⟨-, hc, -⟩ | ⟨-, -, hle, -⟩ | ⟨-, -, -, h⟩ := applyPacket_cases d b
  · cases herr.symm.trans hsto
  · cases hcont.symm.trans hc
  · exact absurd hcap (Nat.not_lt.mpr hle)
  · exact h

theorem deliver_of_streaming (p : Params) {len : Byte} (d : DecodedResponse) (hb : b.phase = .streaming)
    (h6 : 6 ≤ len.toNat) (h64 : len.toNat ≤ 64) : deliver p len d b = applyPacket d b := by
  obtain ⟨hne, -⟩ | ⟨-, hlt, -⟩ | ⟨-, hlt, -⟩ | ⟨-, -, -, h⟩ := deliver_cases p len d b
  · exact absurd hb hne
  · exact absurd h64 (Nat.not_le.mpr hlt)
  · exact absurd h6 (Nat.not_le.mpr hlt)
  · exact h

end Application

/-! ## The row of a classified packet (43_sequencer.md R203) -/

theorem consumeRow_of_row_none {d : DecodedResponse} (h : d.row = none) (b : Block) : consumeRow d b = b := by
  obtain ⟨-, h'⟩ | ⟨m, row, -, hrow, -⟩ := consumeRow_cases d b
  · exact h'
  · cases h.symm.trans hrow

/-- ConsumeRow writes DIM and FB alone. -/
theorem consumeRow_eq (d : DecodedResponse) (b : Block) :
    consumeRow d b = { b with dim := (consumeRow d b).dim, fb := (consumeRow d b).fb } := by
  obtain ⟨dim, fb, h⟩ := consumeRow_form d b
  rw [h]

/-- The classification carries the row `row` of an image of dimension `mode`, from column `base` on. -/
structure CarriesRow (d : DecodedResponse) (mode : BitVec 5) (base : Nat) (row : Byte) (sample : Nat → Sample) :
    Prop where
  mode_eq : modeOf d.dt = some mode
  base_eq : pixelCol mode d.dt 0 = base
  row_eq : d.row = some row
  sample_eq : ∀ k < 12, d.samples.getD k 0 = sample k

theorem carriesRow_rowResponse {p : Params} {n : Nat} {len echo dt st : Byte} {body : List Byte} {cont : Option Bool}
    {err : Option ErrCode} {ch : Option (BitVec 3)} {mode : BitVec 5} {base : Nat} (hmode : modeOf dt = some mode)
    (hbase : pixelCol mode dt 0 = base) :
    CarriesRow (rowResponse p n len body echo dt st cont err ch) mode base st
      (sampleAt p.sampleOrder n len.toNat body) where
  mode_eq := hmode
  base_eq := hbase
  row_eq := rfl
  sample_eq _ hk := sampleRow_getD p.sampleOrder n len.toNat body hk

/-- What ConsumeRow does to DIM and FB, by the cells' addresses (43_sequencer.md R203, R205..R208). -/
theorem CarriesRow.rowAssembled {s t : State} {d : DecodedResponse} {mode : BitVec 5} {base : Nat} {row : Byte}
    {sample : Nat → Sample} (hd : CarriesRow d mode base row sample) (hw : s.fb.wf = true)
    (hdim : t.dim = (consumeRow d (countPacket d s.toBlock)).dim)
    (hfb : t.fb = (consumeRow d (countPacket d s.toBlock)).fb) : RowAssembled s t mode base row sample := by
  obtain ⟨hmode, hbase, hrow, hsample⟩ := hd
  have hlatch : (latchDim mode (countPacket d s.toBlock)).dim = if s.dim = 0 then mode else s.dim := latchDim_dim ..
  obtain ⟨hnone | hnone, -⟩ | ⟨m, row', hm, hr, ⟨hd, hlt, h⟩ | ⟨hno, h⟩⟩ :=
    consumeRow_cases d (countPacket d s.toBlock)
  · cases hmode.symm.trans hnone
  · cases hrow.symm.trans hnone
  · cases hmode.symm.trans hm
    cases hrow.symm.trans hr
    rw [h] at hdim hfb
    have htd : t.dim = mode := hdim.trans hd.symm
    obtain ⟨-, -, hframe, hcells⟩ := FrameBuffer.writeRow_spec hw hmode hlt d.samples
    have haddr (k : Nat) (hk : k < 12) : pixelAddr d.dt row k = row.toNat * 24 + base + k := by
      obtain ⟨ha, -, -⟩ := pixelAddr_row hmode hlt k hk
      rw [ha, pixelCol_add, hbase, Nat.add_assoc]
    refine ⟨hdim.trans hlatch, fun _ _ => ⟨fun k hk => ?_, fun a ha => ?_⟩, fun hno => ?_⟩
    · rw [← haddr k hk, ← hsample k hk, ← hcells k hk, hfb]
      rfl
    · rw [← hframe a fun k hk => haddr k hk ▸ ha k hk, hfb]
      rfl
    · rw [htd] at hno
      exact absurd hlt (Nat.not_lt.mpr (hno.resolve_left (absurd rfl)))
  · cases hmode.symm.trans hm
    cases hrow.symm.trans hr
    rw [h] at hdim hfb
    refine ⟨hdim.trans hlatch, fun htd hlt => ?_, fun _ => hfb.trans (latchDim_fb ..)⟩
    rw [htd] at hlt
    exact absurd hlt (Nat.not_lt.mpr (hno.resolve_left (absurd (htd.symm.trans hdim))))

/-! ## What an instruction that delivers a packet does in STREAMING -/

/-- In the STREAMING state `s`, instruction `i` is a packet whose classification is `d`, and `ch` and `cont` are ACTIVE_CH
and CONT after it. -/
structure AppliesPacket (i : Instr) (s : State) (d : DecodedResponse) (ch : Option (BitVec 3)) (cont : Bool) : Prop where
  streaming : s.phase = .streaming
  exec_eq : exec i s = .next { s with toBlock := applyPacket d s.toBlock }
  ch_eq : d.chUpd.or s.activeCh = ch
  cont_eq : d.contUpd.getD s.cont = cont

/-- In STREAMING the delivery of a packet of 6 to 64 bytes applies it. -/
theorem appliesPacket_of_deliver {i : Instr} {p : Packet} {d : DecodedResponse} {s : State} {ch : Option (BitVec 3)}
    {cont : Bool} (hs : s.phase = .streaming) (hp : p.wf = true)
    (hi : exec i s = .next { s with toBlock := deliver s.params p.len d s.toBlock })
    (hch : d.chUpd.or s.activeCh = ch) (hcont : d.contUpd.getD s.cont = cont) : AppliesPacket i s d ch cont := by
  obtain ⟨h6, h64, -⟩ := Packet.wf_iff.mp hp
  rw [deliver_of_streaming s.params d hs h6 h64] at hi
  exact ⟨hs, hi, hch, hcont⟩

namespace AppliesPacket

variable {i : Instr} {s : State} {d : DecodedResponse} {ch : Option (BitVec 3)} {cont : Bool}

theorem exec_of_sensorTimeout (h : AppliesPacket i s d ch cont) (herr : d.err = some .sensorTimeout) :
    exec i s = .next { s with
      activeCh := ch
      cont := cont
      attempts := s.attempts + 1
      draws := s.draws + 1
      phase := .failed
      err := .sensorTimeout
      txValid := false
      output := some (.record .transport [3, 4]) } := by
  obtain ⟨-, hi, rfl, rfl⟩ := h
  rw [hi, applyPacket_of_sensorTimeout herr]
  rfl

theorem exec_of_terminal (h : AppliesPacket i s d ch cont) (herr : d.err = none) (hcont : cont = false) :
    exec i s = .next { s with
      activeCh := ch
      cont := cont
      attempts := s.attempts + 1
      draws := s.draws + 1
      phase := .complete
      doneReason := .terminal
      frameMeta := some ⟨s.gainMode, s.intTimeMs, ch⟩
      output := some (.record .transport [0, 3]) } := by
  obtain ⟨-, hi, rfl, rfl⟩ := h
  rw [hi, applyPacket_of_terminal herr hcont]
  rfl

theorem exec_of_continuing_below_cap (h : AppliesPacket i s d ch cont) (herr : d.err = none) (hcont : cont = true)
    (hcap : s.attempts.toNat + 1 < s.cap.toNat) : exec i s = .next { s with
      toBlock := respond .transport [0, 2] (consumeRow d (countPacket d s.toBlock)) } := by
  obtain ⟨hs, hi, rfl, rfl⟩ := h
  rw [hi, applyPacket_of_continuing_below_cap herr hcont hcap, hs]
  rfl

theorem exec_of_continuing_at_cap (h : AppliesPacket i s d ch cont) (herr : d.err = none) (hcont : cont = true)
    (hcap : s.cap.toNat ≤ s.attempts.toNat + 1) : exec i s = .next { s with
      toBlock := respond .transport [0, 3] (completeCapture .cap (consumeRow d (countPacket d s.toBlock))) } := by
  obtain ⟨-, hi, rfl, rfl⟩ := h
  rw [hi, applyPacket_of_continuing_at_cap herr hcont hcap]

/-- A continuing packet writes the elements listed, and what its row makes of DIM and FB (43_sequencer.md R196, R198). -/
theorem exec_of_continuing (h : AppliesPacket i s d ch cont) (herr : d.err = none) (hcont : cont = true) :
    ∃ t, exec i s = .next t ∧ t.dim = (consumeRow d (countPacket d s.toBlock)).dim ∧
      t.fb = (consumeRow d (countPacket d s.toBlock)).fb ∧
      (s.attempts.toNat + 1 < s.cap.toNat → t = { s with
        activeCh := ch
        cont := cont
        attempts := s.attempts + 1
        draws := s.draws + 1
        dim := t.dim
        fb := t.fb
        output := some (.record .transport [0, 2]) }) ∧
      (s.cap.toNat ≤ s.attempts.toNat + 1 → t = { s with
        activeCh := ch
        cont := cont
        attempts := s.attempts + 1
        draws := s.draws + 1
        dim := t.dim
        fb := t.fb
        phase := .complete
        doneReason := .cap
        frameMeta := some ⟨s.gainMode, s.intTimeMs, ch⟩
        output := some (.record .transport [0, 3]) }) := by
  have hwrites := consumeRow_eq d (countPacket d s.toBlock)
  by_cases hcap : s.attempts.toNat + 1 < s.cap.toNat
  · refine ⟨_, h.exec_of_continuing_below_cap herr hcont hcap, rfl, rfl, fun _ => ?_,
      fun hle => absurd hcap (Nat.not_lt.mpr hle)⟩
    obtain ⟨-, -, rfl, rfl⟩ := h
    exact congrArg (fun b => State.mk (respond .transport [0, 2] b) s.params) hwrites
  · refine ⟨_, h.exec_of_continuing_at_cap herr hcont (Nat.not_lt.mp hcap), rfl, rfl, fun hlt => absurd hlt hcap,
      fun _ => ?_⟩
    obtain ⟨-, -, rfl, rfl⟩ := h
    exact congrArg (fun b => State.mk (respond .transport [0, 3] (completeCapture .cap b)) s.params) hwrites

end AppliesPacket

/-! ## The classes of R91 in STREAMING -/

/-- Settles O38: each of the five classes carries its row, turns CONT on and names its channel. -/
theorem continuingGetReplyIsAssembled : Obligations.ContinuingGetReplyIsAssembled := by
  intro f mode base ch hf p st s hs hp _ _ hw
  have hclass : ∃ d, AppliesPacket (f p st) s d (some ch) true ∧ d.err = none ∧
      CarriesRow d mode base st (sampleAt s.params.sampleOrder s.draws p.len.toNat p.body) := by
    simp only [List.mem_cons, List.not_mem_nil, or_false, Prod.mk.injEq] at hf
    obtain ⟨rfl, rfl, rfl, rfl⟩ | ⟨rfl, rfl, rfl, rfl⟩ | ⟨rfl, rfl, rfl, rfl⟩ | ⟨rfl, rfl, rfl, rfl⟩ |
      ⟨rfl, rfl, rfl, rfl⟩ := hf
    all_goals exact ⟨_, appliesPacket_of_deliver hs hp rfl rfl rfl, rfl, carriesRow_rowResponse rfl rfl⟩
  obtain ⟨d, hi, herr, hd⟩ := hclass
  obtain ⟨t, ht, hdim, hfb, hbelow, hat⟩ := hi.exec_of_continuing herr rfl
  exact ⟨t, ht, hd.rowAssembled hw hdim hfb, hbelow, hat⟩

/-- Settles O39: the packet keeps CONT, which alone decides whether its row is assembled or the capture ends. -/
theorem retainedRowIsAssembled : Obligations.RetainedRowIsAssembled := by
  intro f mode base hf p echo st s hs hp _ hw
  have hclass : ∃ d, AppliesPacket (f p echo st) s d s.activeCh s.cont ∧ d.err = none ∧
      CarriesRow d mode base st (sampleAt s.params.sampleOrder s.draws p.len.toNat p.body) := by
    simp only [List.mem_cons, List.not_mem_nil, or_false, Prod.mk.injEq] at hf
    obtain ⟨rfl, rfl, rfl⟩ | ⟨rfl, rfl, rfl⟩ | ⟨rfl, rfl, rfl⟩ | ⟨rfl, rfl, rfl⟩ | ⟨rfl, rfl, rfl⟩ := hf
    all_goals exact ⟨_, appliesPacket_of_deliver hs hp rfl rfl rfl, rfl, carriesRow_rowResponse rfl rfl⟩
  obtain ⟨d, hi, herr, hd⟩ := hclass
  refine ⟨fun hcont => ?_, hi.exec_of_terminal herr⟩
  obtain ⟨t, ht, hdim, hfb, hbelow, hat⟩ := hi.exec_of_continuing herr hcont
  exact ⟨t, ht, hd.rowAssembled hw hdim hfb, hbelow, hat⟩

/-- Settles O43: none of the classes carries a row, and CONT is on after each of them. -/
theorem continuingPacketWithoutRow : Obligations.ContinuingPacketWithoutRow := by
  intro i ch p echo dt st s hs hp _ hi
  have hclass : ∃ d, AppliesPacket i s d ch true ∧ d.err = none ∧ d.row = none := by
    obtain ⟨rfl | rfl | rfl, rfl⟩ | ⟨rfl, rfl⟩ | ⟨rfl, hcont, rfl⟩ := hi
    case inr.inr => exact ⟨_, appliesPacket_of_deliver hs hp rfl rfl hcont, rfl, rfl⟩
    all_goals exact ⟨_, appliesPacket_of_deliver hs hp rfl rfl rfl, rfl, rfl⟩
  obtain ⟨d, hd, herr, hrow⟩ := hclass
  obtain ⟨t, ht, hdim, hfb, hbelow, hat⟩ := hd.exec_of_continuing herr rfl
  rw [consumeRow_of_row_none hrow] at hdim hfb
  rw [hdim, hfb] at hbelow hat
  exact ⟨fun hcap => ht.trans (congrArg _ (hbelow hcap)), fun hcap => ht.trans (congrArg _ (hat hcap))⟩

/-- Settles O40: each of the six classes turns CONT off without an error, and names its channel. -/
theorem terminalGetReplyCompletes : Obligations.TerminalGetReplyCompletes := by
  intro f ch hf p s hs hp
  have hclass : ∃ d, AppliesPacket (f p) s d (some ch) false ∧ d.err = none := by
    simp only [List.mem_cons, List.not_mem_nil, or_false, Prod.mk.injEq] at hf
    obtain ⟨rfl, rfl⟩ | ⟨rfl, rfl⟩ | ⟨rfl, rfl⟩ | ⟨rfl, rfl⟩ | ⟨rfl, rfl⟩ | ⟨rfl, rfl⟩ := hf
    all_goals exact ⟨_, appliesPacket_of_deliver hs hp rfl rfl rfl, rfl⟩
  obtain ⟨d, hi, herr⟩ := hclass
  exact hi.exec_of_terminal herr rfl

/-- Settles O41: each of the six classes has the error SENSOR_TIMEOUT, and names its channel. -/
theorem sensorTimeoutFailsCapture : Obligations.SensorTimeoutFailsCapture := by
  intro f ch hf p s hs hp
  have hclass : ∃ d, AppliesPacket (f p) s d (some ch) false ∧ d.err = some .sensorTimeout := by
    simp only [List.mem_cons, List.not_mem_nil, or_false, Prod.mk.injEq] at hf
    obtain ⟨rfl, rfl⟩ | ⟨rfl, rfl⟩ | ⟨rfl, rfl⟩ | ⟨rfl, rfl⟩ | ⟨rfl, rfl⟩ | ⟨rfl, rfl⟩ := hf
    all_goals exact ⟨_, appliesPacket_of_deliver hs hp rfl rfl rfl, rfl⟩
  obtain ⟨d, hi, herr⟩ := hclass
  exact hi.exec_of_sensorTimeout herr

/-- Settles O42: each of the three classes turns CONT off without an error, and names no channel. -/
theorem terminalStatusCompletes : Obligations.TerminalStatusCompletes := by
  intro f hf p echo s hs hp
  have hclass : ∃ d, AppliesPacket (f p echo) s d s.activeCh false ∧ d.err = none := by
    simp only [List.mem_cons, List.not_mem_nil, or_false] at hf
    obtain rfl | rfl | rfl := hf
    all_goals exact ⟨_, appliesPacket_of_deliver hs hp rfl rfl rfl, rfl⟩
  obtain ⟨d, hi, herr⟩ := hclass
  exact hi.exec_of_terminal herr rfl

end Sys2Proof.Machine
end

section
/-! PROOF. 42_mapper.md: the mapper's outputs (R170..R174), and the quadrant of a capture's channel (R175). -/

namespace Sys2Proof.Machine

/-! ## The data_types of a 24×24 image, by their column base (42_mapper.md R171, R173) -/

section Quadrants

variable {dt : Byte}

theorem modeOf_eq_24 (h : dt = 0x02 ∨ dt = 0x12 ∨ dt = 0x22 ∨ dt = 0x32) : modeOf dt = some 24 := by
  have h12 : dt ≠ 0x01 := by obtain rfl | rfl | rfl | rfl := h <;> decide
  exact (if_neg h12).trans (if_pos h)

theorem modeOf_of_leftHalf (h : dt = 0x02 ∨ dt = 0x22) : modeOf dt = some 24 :=
  modeOf_eq_24 (h.elim .inl fun h => .inr (.inr (.inl h)))

theorem modeOf_of_rightHalf (h : dt = 0x12 ∨ dt = 0x32) : modeOf dt = some 24 :=
  modeOf_eq_24 (h.elim (fun h => .inr (.inl h)) fun h => .inr (.inr (.inr h)))

theorem colBase_of_leftHalf (h : dt = 0x02 ∨ dt = 0x22) : colBase (quadrantOf dt) = 0 := by
  obtain rfl | rfl := h <;> rfl

theorem colBase_of_rightHalf (h : dt = 0x12 ∨ dt = 0x32) : colBase (quadrantOf dt) = 12 := by
  obtain rfl | rfl := h <;> rfl

end Quadrants

/-! ## The outputs (42_mapper.md R172, R174) -/

section Outputs

variable {dt row : Byte} {k : Nat} {dim m : BitVec 5}

theorem pixelCol_24 : pixelCol 24 dt k = colBase (quadrantOf dt) + k := rfl

theorem mapPixel_of_modeOf_eq_none (h : modeOf dt = none) : mapPixel dt row k dim = ⟨none, 0, 0, 0, false⟩ := by
  simp only [mapPixel, h]

theorem mapPixel_of_modeOf (h : modeOf dt = some m) :
    mapPixel dt row k dim = ⟨some m, row.toNat, pixelCol m dt k, BitVec.ofNat 10 (row.toNat * 24 + pixelCol m dt k),
      decide (dim = m ∧ row.toNat < m.toNat)⟩ := by
  have hwe : (decide (m = dim) && decide (row.toNat < dim.toNat)) = decide (dim = m ∧ row.toNat < m.toNat) := by
    by_cases hdim : dim = m
    · subst hdim; simp
    · simp [hdim, Ne.symm hdim]
  simp only [mapPixel, h, hwe, Config.fbStride]

/-- The address output is the low 10 bits of R172's address, in every mode. -/
theorem mapPixel_addr :
    (mapPixel dt row k dim).a = BitVec.ofNat 10 ((mapPixel dt row k dim).r * 24 + (mapPixel dt row k dim).c) := by
  cases h : modeOf dt with
  | none => rw [mapPixel_of_modeOf_eq_none h]; rfl
  | some m => rw [mapPixel_of_modeOf h]

theorem mapPixel_addr_of_fits (h : (mapPixel dt row k dim).r * 24 + (mapPixel dt row k dim).c < 1024) :
    (mapPixel dt row k dim).a.toNat = (mapPixel dt row k dim).r * 24 + (mapPixel dt row k dim).c := by
  rw [mapPixel_addr, BitVec.toNat_ofNat, Nat.mod_eq_of_lt h]

/-- The write enable is 1 only for a row of the dimension in force (42_mapper.md R174). -/
theorem mapPixel_we_iff :
    (mapPixel dt row k dim).we = true ↔ modeOf dt = some dim ∧ row.toNat < dim.toNat := by
  cases h : modeOf dt with
  | none => simp [mapPixel_of_modeOf_eq_none h]
  | some m =>
    simp only [mapPixel_of_modeOf h, decide_eq_true_eq, Option.some.injEq]
    constructor <;> (rintro ⟨rfl, hrow⟩; exact ⟨rfl, hrow⟩)

/-- The address does not depend on the dimension in force. -/
theorem mapPixel_addr_eq_pixelAddr (h : modeOf dt = some m) : (mapPixel dt row k dim).a.toNat = pixelAddr dt row k := by
  rw [pixelAddr, mapPixel_of_modeOf h, mapPixel_of_modeOf h]

theorem mapPixel_bounds_of_we (hk : k < 12) (h : (mapPixel dt row k dim).we = true) :
    (mapPixel dt row k dim).r < dim.toNat ∧ (mapPixel dt row k dim).c < dim.toNat ∧
      (mapPixel dt row k dim).a.toNat ≤ 575 := by
  obtain ⟨hm, hrow⟩ := mapPixel_we_iff.mp h
  obtain ⟨-, haddr, hcol⟩ := pixelAddr_row hm hrow k hk
  refine ⟨?_, ?_, ?_⟩
  · rw [mapPixel_of_modeOf hm]; exact hrow
  · rw [mapPixel_of_modeOf hm]; exact hcol
  · rw [mapPixel_addr_eq_pixelAddr hm]; exact Nat.le_of_lt_succ haddr

end Outputs

/-- Settles O26: one equation for each mode and half of the image, and the bounds of R174. -/
theorem mapperOutputs : Obligations.MapperOutputs := by
  intro dt row k dim hk
  refine ⟨?mode12, ?leftHalf, ?rightHalf, ?noMode, mapPixel_addr_of_fits, mapPixel_bounds_of_we hk⟩
  case mode12 =>
    rintro rfl
    exact mapPixel_of_modeOf rfl
  case leftHalf =>
    intro h
    rw [mapPixel_of_modeOf (modeOf_of_leftHalf h), pixelCol_24, colBase_of_leftHalf h, Nat.zero_add]
    rfl
  case rightHalf =>
    intro h
    rw [mapPixel_of_modeOf (modeOf_of_rightHalf h), pixelCol_24, colBase_of_rightHalf h]
    rfl
  case noMode => exact fun h => mapPixel_of_modeOf_eq_none (modeOf_eq_none h)

/-! ## Channels and quadrants (42_mapper.md R175) -/

/-- The data_types of the 24×24 responses, channel by channel. -/
theorem responseDataType_cases {c : BitVec 3} {dt : Byte} (hlo : 1 ≤ c.toNat) (hhi : c.toNat ≤ 4)
    (hdt : dt = ((c.setWidth 8 - 1) <<< 4) ||| 0x02) :
    (c = 1 ∧ dt = 0x02) ∨ (c = 2 ∧ dt = 0x12) ∨ (c = 3 ∧ dt = 0x22) ∨ (c = 4 ∧ dt = 0x32) := by
  have hc : c = 1 ∨ c = 2 ∨ c = 3 ∨ c = 4 := by bv_omega
  subst hdt
  obtain rfl | rfl | rfl | rfl := hc <;> decide

/-- In a get reply the channel update is the quadrant's channel (41_classifier.md R145). -/
theorem chUpdate_of_mem_getSet {g dt : Byte} (h : dt ∈ getSet) :
    chUpdate g g dt = some ((quadrantOf dt + 1).setWidth 3) := if_pos (isGetReply_iff.mpr ⟨rfl, h⟩)

/-- Settles O27: each channel has its own data_type, which is a get reply's. -/
theorem channelAndQuadrant : Obligations.ChannelAndQuadrant := by
  intro c hlo hhi dt hdt
  obtain ⟨rfl, rfl⟩ | ⟨rfl, rfl⟩ | ⟨rfl, rfl⟩ | ⟨rfl, rfl⟩ := responseDataType_cases hlo hhi hdt
  all_goals exact ⟨rfl, modeOf_eq_24 (by decide), rfl, fun _ => chUpdate_of_mem_getSet (by decide)⟩

end Sys2Proof.Machine
end

section
/-! PROOF. 43_sequencer.md: the operations of the sequencer (R190..R201), one packet (R194..R198, R209), restart (R202), the
transitions of STATE (R210), and the registers and the frame (R211..R213). -/

namespace Sys2Proof.Machine

/-! ## What the operations of the sequencer answer -/

section Sequencer

variable {ch st : Byte} {s : State}

theorem inFlight_eq_false (hreq : s.phase ≠ .requesting) (hstr : s.phase ≠ .streaming) : inFlight s.toBlock = false :=
  Bool.eq_false_iff.mpr fun h => ((inFlight_iff _).mp h).elim hreq hstr

theorem raiseWithState_of_phase {b : Block} {ph : Phase} (hb : b.phase = ph) (port : Port) (e : ErrCode) :
    raiseWithState port e b = respond port [errCode e, phaseCode ph] b := by
  rw [raiseWithState_eq, hb]

theorem exec_capStart_of_inFlight (hs : inFlight s.toBlock = true) :
    exec (.capStart ch) s = .next { s with output := some (.record .host [7]) } := by
  simp only [exec, execCapStart, State.operate, if_pos hs]
  rfl

theorem exec_capStart_of_illegalChannel (hs : inFlight s.toBlock = false) (hch : ch.toNat < 1 ∨ 4 < ch.toNat) :
    exec (.capStart ch) s = .next { s with output := some (.record .host [8]) } := by
  simp only [exec, execCapStart, State.operate, hs, if_pos hch]
  rfl

/-- The Command of a capture of channel 1..4 (40_framer.md R118). -/
theorem commandOf_capture (h1 : 1 ≤ ch.toNat) (h4 : ch.toNat ≤ 4) :
    commandOf 3 (ch.setWidth 24) = some (.capture (BitVec.ofNat 3 ch.toNat)) := by
  have harg : (ch.setWidth 24).toNat = ch.toNat := BitVec.toNat_setWidth_of_le (by decide)
  exact commandOf_of_inRange (.inr (.inr (.inr ⟨rfl, harg.symm ▸ h1, harg.symm ▸ h4, by rw [harg]⟩)))

theorem exec_capStart_of_error (hs : inFlight s.toBlock = false) (h1 : 1 ≤ ch.toNat) (h4 : ch.toNat ≤ 4) {e : ErrCode}
    (he : encodeCommand s.params (.capture (BitVec.ofNat 3 ch.toNat)) = .error e) :
    exec (.capStart ch) s = .next { s with output := some (.record .host [errCode e]) } := by
  have hch : ¬ (ch.toNat < 1 ∨ 4 < ch.toNat) := by omega
  simp only [exec, execCapStart, State.operate, hs, if_neg hch, buildCommand, commandOf_capture h1 h4, he]
  rfl

theorem exec_capStart_of_report (hs : inFlight s.toBlock = false) (h1 : 1 ≤ ch.toNat) (h4 : ch.toNat ≤ 4) {rep : Report}
    (hrep : encodeCommand s.params (.capture (BitVec.ofNat 3 ch.toNat)) = .ok rep) :
    exec (.capStart ch) s =
      .next { s with toBlock := respond .host (0 :: rep) (startCapture s.params rep s.toBlock) } := by
  have hch : ¬ (ch.toNat < 1 ∨ 4 < ch.toNat) := by omega
  simp only [exec, execCapStart, State.operate, hs, if_neg hch, buildCommand, commandOf_capture h1 h4, hrep]
  rfl

theorem exec_sendAck_of_not_requesting (hs : s.phase ≠ .requesting) :
    exec (.sendAck st) s = .next { s with output := some (.record .transport [7, phaseCode s.phase]) } := by
  simp only [exec, execSendAck, State.operate, if_pos hs]
  rfl

theorem exec_sendAck_of_illegalStatus (hs : s.phase = .requesting) (hst : 2 ≤ st.toNat) :
    exec (.sendAck st) s = .next { s with output := some (.record .transport [8, 1]) } := by
  have hlt : 1 < st.toNat := hst
  simp only [exec, execSendAck, State.operate, if_neg (not_not.mpr hs), if_pos hlt, raiseWithState_of_phase hs]
  rfl

theorem exec_sendAck_zero (hs : s.phase = .requesting) : exec (.sendAck 0) s = .next { s with
    txValid := false, phase := .streaming, output := some (.record .transport [0, 2]) } := by
  simp only [exec, execSendAck, State.operate, if_neg (not_not.mpr hs)]
  rfl

theorem exec_sendAck_one (hs : s.phase = .requesting) : exec (.sendAck 1) s = .next { s with
    txValid := false, phase := .failed, err := .transportError, output := some (.record .transport [0, 4]) } := by
  simp only [exec, execSendAck, State.operate, if_neg (not_not.mpr hs)]
  rfl

theorem exec_rdTimeout_of_streaming (hs : s.phase = .streaming) : exec .rdTimeout s = .next { s with
    phase := .failed, err := .timedOut, txValid := false, output := some (.record .transport [0, 4]) } := by
  simp only [exec, execRdTimeout, State.operate, if_neg (not_not.mpr hs)]
  rfl

theorem exec_rdTimeout_of_not_streaming (hs : s.phase ≠ .streaming) :
    exec .rdTimeout s = .next { s with output := some (.record .transport [7, phaseCode s.phase]) } := by
  simp only [exec, execRdTimeout, State.operate, if_pos hs]
  rfl

theorem exec_xportErr_of_inFlight (hs : inFlight s.toBlock = true) : exec .xportErr s = .next { s with
    phase := .failed, err := .transportError, txValid := false, output := some (.record .transport [0, 4]) } := by
  simp only [exec, execXportErr, State.operate, if_pos hs]
  rfl

theorem exec_xportErr_of_not_inFlight (hs : inFlight s.toBlock = false) :
    exec .xportErr s = .next { s with output := some (.record .transport [7, phaseCode s.phase]) } := by
  simp only [exec, execXportErr, State.operate, hs]
  rfl

theorem exec_abort (s : State) :
    exec .abort s = .next { s with toBlock := respond .host [0, 0] (returnToIdle s.toBlock) } := rfl

end Sequencer

/-- Settles O28: CAP_START's two checks, then the report of kind 3 or its error. -/
theorem capStartBeginsCapture : Obligations.CapStartBeginsCapture := by
  refine fun ch s => ⟨fun _ _ => (Operation.capStart ch).decodeTransaction_eq,
    fun hs => exec_capStart_of_inFlight ((inFlight_iff _).mpr hs),
    fun hreq hstr hch => exec_capStart_of_illegalChannel (inFlight_eq_false hreq hstr) hch,
    fun hreq hstr h1 h4 => ?_⟩
  have hs := inFlight_eq_false hreq hstr
  have hbuild : buildCommand s.params 3 (BitVec.ofNat 24 ch.toNat) =
      encodeCommand s.params (.capture (BitVec.ofNat 3 ch.toNat)) := by
    rw [BitVec.ofNat_toNat]
    exact buildCommand_of_commandOf s.params (commandOf_capture h1 h4)
  refine ⟨fun e he => ⟨exec_capStart_of_error hs h1 h4 he, ?_⟩, fun rep hrep => ⟨?_, FrameBuffer.filledWith s.params.fill,
    fun a _ => FrameBuffer.filledWith_read _ a, exec_capStart_of_report hs h1 h4 hrep⟩⟩
  · rw [exec_encCmd, hbuild, he]
    rfl
  · rw [exec_encCmd, hbuild, hrep]
    rfl

/-- Settles O29: all that ABORT writes CAP_START writes too, and ABORT leaves what CAP_START reads. -/
theorem restartIsAbortThenStart : Obligations.RestartIsAbortThenStart := by
  intro ch s rep hs h1 h4 hrep
  have hflight : inFlight s.toBlock = false :=
    inFlight_eq_false (by obtain h | h := hs <;> simp [h]) (by obtain h | h := hs <;> simp [h])
  exact ⟨_, _, exec_abort s, exec_capStart_of_report rfl h1 h4 hrep, exec_capStart_of_report hflight h1 h4 hrep, rfl⟩

/-- Settles O30: SEND_ACK's two checks, then the two legal status bytes. -/
theorem sendAckStartsStreaming : Obligations.SendAckStartsStreaming := by
  refine fun st s => ⟨fun _ _ => (Operation.sendAck st).decodeTransaction_eq, exec_sendAck_of_not_requesting,
    exec_sendAck_of_illegalStatus, ?_, ?_⟩
  · rintro hs rfl
    exact exec_sendAck_zero hs
  · rintro hs rfl
    exact exec_sendAck_one hs

/-- Settles O31, in STREAMING and outside it. -/
theorem rdTimeoutFailsCapture : Obligations.RdTimeoutFailsCapture :=
  ⟨fun _ _ => Operation.rdTimeout.decodeTransaction_eq,
    fun _ => ⟨exec_rdTimeout_of_streaming, exec_rdTimeout_of_not_streaming⟩⟩

/-- Settles O32, with a capture in flight and without. -/
theorem xportErrFailsCapture : Obligations.XportErrFailsCapture :=
  ⟨fun _ _ => Operation.xportErr.decodeTransaction_eq, fun _ =>
    ⟨fun hs => exec_xportErr_of_inFlight ((inFlight_iff _).mpr hs),
      fun hreq hstr => exec_xportErr_of_not_inFlight (inFlight_eq_false hreq hstr)⟩⟩

/-- Settles O33: ABORT has no check. -/
theorem abortReturnsToIdle : Obligations.AbortReturnsToIdle :=
  ⟨fun _ _ => Operation.abort.decodeTransaction_eq, exec_abort⟩

/-! ## One packet (43_sequencer.md R194..R198) -/

/-- Every delivery of a report is `deliver` of some length and classification: IN_TRUNCATED answers as PKT_IN of a report
with L = 0. -/
theorem exec_eq_deliver_of_deliversReport {i : Instr} (hi : DeliversReport i) (s : State) :
    ∃ len d, exec i s = .next { s with toBlock := deliver s.params len d s.toBlock } := by
  obtain h | ⟨len, r, rfl⟩ := exec_deliversReport hi s
  · exact h
  · exact ⟨0, _, (exec_pktIn_of_truncated (len := 0) (by decide) r).symm⟩

/-- Settles O34: the first two checks of a delivery. -/
theorem packetOutsideStreaming : Obligations.PacketOutsideStreaming := by
  refine fun s => ⟨fun i hi hs => ?_, fun len r hs hlen => ?_⟩
  · obtain ⟨len, d, h⟩ := exec_eq_deliver_of_deliversReport hi s
    rw [h, deliver, if_pos hs]
    rfl
  · simp only [exec, execPktIn, State.operate, deliver, if_neg (not_not.mpr hs), if_pos hlen,
      raiseWithState_of_phase hs]
    rfl

/-- A truncated packet in STREAMING does what `ignoreTruncated` does. -/
theorem exec_inTruncated_of_streaming {s : State} (hs : s.phase = .streaming) (len : Byte) (r : Report) :
    exec (.inTruncated len r) s = .next { s with toBlock := ignoreTruncated s.params s.toBlock } := by
  simp only [exec, execInTruncated, State.operate, deliverTruncated, if_neg (not_not.mpr hs)]

/-- Settles O35: both instructions are the truncated packet of `ignoreTruncated_cases`. -/
theorem truncatedPacketIsIgnored : Obligations.TruncatedPacketIsIgnored := by
  intro len r s i hs hlen hi
  have hexec : exec i s = .next { s with toBlock := ignoreTruncated s.params s.toBlock } := by
    obtain rfl | rfl := hi
    · exact (exec_pktIn_of_truncated hlen r).trans (exec_inTruncated_of_streaming hs len r)
    · exact exec_inTruncated_of_streaming hs len r
  rw [hexec]
  obtain ⟨hcount, h⟩ | ⟨hcount, hcap, h⟩ | ⟨hcount, hcap, h⟩ := ignoreTruncated_cases s.params s.toBlock
  · rw [hs] at h
    rw [h, hcount]
    exact ⟨fun _ => rfl, nofun, nofun⟩
  · rw [hs] at h
    rw [h, hcount]
    exact ⟨nofun, fun _ _ => rfl, fun _ hle => absurd hcap (Nat.not_lt.mpr hle)⟩
  · rw [h, hcount]
    exact ⟨nofun, fun _ hlt => absurd hlt (Nat.not_lt.mpr hcap), fun _ _ => rfl⟩

theorem classifyReport_row_of_not_mem_rowSet {r : Report} (h : byteAt r 4 ∉ rowSet) (p : Params) (n : Nat) (len : Byte) :
    (classifyReport p n len r).row = none := by
  rw [classifyReport_of_not_mem_rowSet p n len h]
  rfl

/-- The row of a report's classification, by R91's data_types: its mode and its first column (42_mapper.md R171, R173). -/
theorem carriesRow_classifyReport {r : Report} {mode : BitVec 5} {base : Nat}
    (h : (byteAt r 4, mode, base) ∈ [(0x01#8, 12#5, 0), (0x02, 24, 0), (0x12, 24, 12), (0x22, 24, 0), (0x32, 24, 12)])
    (p : Params) (n : Nat) (len : Byte) :
    CarriesRow (classifyReport p n len r) mode base (byteAt r 5) fun k => (classifyReport p n len r).samples.getD k 0 := by
  obtain ⟨hrow, hmode, hbase⟩ : byteAt r 4 ∈ rowSet ∧ modeOf (byteAt r 4) = some mode ∧
      pixelCol mode (byteAt r 4) 0 = base := by
    generalize byteAt r 4 = dt at h
    simp only [List.mem_cons, List.not_mem_nil, or_false, Prod.mk.injEq] at h
    obtain ⟨rfl, rfl, rfl⟩ | ⟨rfl, rfl, rfl⟩ | ⟨rfl, rfl, rfl⟩ | ⟨rfl, rfl, rfl⟩ | ⟨rfl, rfl, rfl⟩ := h
    all_goals decide
  rw [classifyReport_of_mem_rowSet p n len hrow]
  exact ⟨hmode, hbase, rfl, fun _ _ => rfl⟩

/-- Settles O36: in STREAMING a legal report is applied by its classification, whose row is R91's. -/
theorem pktInAppliesPacket : Obligations.PktInAppliesPacket := by
  rintro len r s d ch cont hs h6 h64 hw rfl rfl rfl
  have hexec : exec (.pktIn len r) s =
      .next { s with toBlock := applyPacket (classifyReport s.params s.draws len r) s.toBlock } := by
    rw [← deliver_of_streaming s.params _ hs h6 h64]
    rfl
  have hi : AppliesPacket (.pktIn len r) s _ _ _ := ⟨hs, hexec, rfl, rfl⟩
  refine ⟨hi.exec_of_sensorTimeout, fun herr hcont => ?_, fun herr hcont => ?_⟩
  · rw [hi.exec_of_terminal herr hcont, hcont]
  · obtain ⟨t, ht, hdim, hfb, hbelow, hat⟩ := hi.exec_of_continuing herr hcont
    rw [hcont] at hbelow hat
    refine ⟨t, ht, hbelow, hat, fun mode base hrow =>
      (carriesRow_classifyReport hrow s.params s.draws len).rowAssembled hw hdim hfb, fun hno => ?_⟩
    rw [consumeRow_of_row_none (classifyReport_row_of_not_mem_rowSet hno s.params s.draws len)] at hdim hfb
    exact ⟨hdim, hfb⟩

/-- Settles O44: the packet names no channel and keeps CONT, which is off. -/
theorem otherPacketWithContinuationOff : Obligations.OtherPacketWithContinuationOff := by
  intro p echo dt st s hs hp hcont
  have hi : AppliesPacket (.inOther p echo dt st) s (plainResponse echo dt none none none) s.activeCh s.cont :=
    appliesPacket_of_deliver hs hp rfl rfl rfl
  exact hi.exec_of_terminal rfl hcont

/-! ## Assembling a row twice (43_sequencer.md R209) -/

/-- DIM is latched once: a dimension in force stays (43_sequencer.md R205). -/
theorem latchDim_of_dim_ne_zero (m : BitVec 5) {b : Block} (h : b.dim ≠ 0) : latchDim m b = b := if_neg h

theorem latchDim_dim_ne_zero {m : BitVec 5} (hm : m ≠ 0) (b : Block) : (latchDim m b).dim ≠ 0 := by
  rw [latchDim_dim]
  split_ifs with h
  · exact hm
  · exact h

/-- Writing a row over itself changes nothing: the canonical frame buffers read the same. -/
theorem FrameBuffer.writeRow_writeRow {fb : FrameBuffer} (hw : fb.wf = true) {dt row : Byte} {m : BitVec 5}
    (hm : modeOf dt = some m) (hr : row.toNat < m.toNat) (samples : List Sample) :
    (fb.writeRow dt row samples).writeRow dt row samples = fb.writeRow dt row samples := by
  obtain ⟨hw1, -, -, hcells1⟩ := writeRow_spec hw hm hr samples
  obtain ⟨hw2, hbase2, hframe2, hcells2⟩ := writeRow_spec hw1 hm hr samples
  refine eq_of_read hw2 hw1 hbase2 fun a => ?_
  by_cases ha : ∃ k < 12, a = pixelAddr dt row k
  · obtain ⟨k, hk, rfl⟩ := ha
    rw [hcells2 k hk, hcells1 k hk]
  · exact hframe2 a fun k hk he => ha ⟨k, hk, he⟩

theorem consumeRow_of_fits {d : DecodedResponse} {b : Block} {m : BitVec 5} {row : Byte} (hm : modeOf d.dt = some m)
    (hrow : d.row = some row) (hdim : m = (latchDim m b).dim) (hlt : row.toNat < m.toNat) :
    consumeRow d b = { latchDim m b with fb := b.fb.writeRow d.dt row d.samples } := by
  obtain ⟨hnone | hnone, -⟩ | ⟨m', row', hm', hrow', ⟨-, -, h⟩ | ⟨hno, -⟩⟩ := consumeRow_cases d b
  · cases hm.symm.trans hnone
  · cases hrow.symm.trans hnone
  · cases hm.symm.trans hm'
    cases hrow.symm.trans hrow'
    exact h
  · cases hm.symm.trans hm'
    cases hrow.symm.trans hrow'
    exact absurd hlt (Nat.not_lt.mpr (hno.resolve_left (absurd hdim)))

theorem consumeRow_of_not_fits {d : DecodedResponse} {b : Block} {m : BitVec 5} {row : Byte} (hm : modeOf d.dt = some m)
    (hrow : d.row = some row) (hno : m ≠ (latchDim m b).dim ∨ m.toNat ≤ row.toNat) : consumeRow d b = latchDim m b := by
  obtain ⟨hnone | hnone, -⟩ | ⟨m', row', hm', hrow', ⟨hdim, hlt, -⟩ | ⟨-, h⟩⟩ := consumeRow_cases d b
  · cases hm.symm.trans hnone
  · cases hrow.symm.trans hnone
  · cases hm.symm.trans hm'
    cases hrow.symm.trans hrow'
    exact absurd hlt (Nat.not_lt.mpr (hno.resolve_left (absurd hdim)))
  · cases hm.symm.trans hm'
    exact h

/-- Settles O45: after the first time DIM is latched, so the second time the row fits or not as it did, and a row that fits
is written over itself. -/
theorem consumeRowIsIdempotent : Obligations.ConsumeRowIsIdempotent := by
  intro d b hw
  obtain ⟨-, h⟩ | ⟨m, row, hm, hrow, hfit⟩ := consumeRow_cases d b
  · rw [h, h]
  have hm0 : m ≠ 0 := by obtain rfl | rfl := modeOf_legal hm <;> decide
  have hdim0 := latchDim_dim_ne_zero hm0 b
  obtain ⟨hdim, hlt, h⟩ | ⟨hno, h⟩ := hfit
  · have hlatch := latchDim_of_dim_ne_zero m (b := consumeRow d b) (by rw [h]; exact hdim0)
    have hdim' : m = (latchDim m (consumeRow d b)).dim := by rw [hlatch, h]; exact hdim
    rw [consumeRow_of_fits hm hrow hdim' hlt, hlatch, h]
    exact congrArg (fun fb => { latchDim m b with fb := fb })
      (FrameBuffer.writeRow_writeRow hw hm hlt d.samples)
  · have hlatch := latchDim_of_dim_ne_zero m hdim0
    rw [h, consumeRow_of_not_fits hm hrow (by rw [hlatch]; exact hno), hlatch]

/-! ## The registers (43_sequencer.md R211, R213; 10_state.md R37) -/

theorem bytes32_eq_fourBytes (w : BitVec 32) : bytes32 w = fourBytes w.toNat := by
  simp only [bytes32, fourBytes, BitVec.extractLsb', Nat.shiftRight_eq_div_pow, Nat.reducePow, Nat.div_one]

theorem toNat_optionWord {n : Nat} (hn : n ≤ 31) (o : Option (BitVec n)) : (optionWord o).toNat = optionNumber o := by
  cases o with
  | none => rfl
  | some v =>
    have hlt : v.toNat < 2 ^ 31 := Nat.lt_of_lt_of_le v.isLt (Nat.pow_le_pow_right (by decide) hn)
    have hv : (v.setWidth 32).toNat = v.toNat := BitVec.toNat_setWidth_of_le (by omega)
    change (0x80000000#32 ||| v.setWidth 32).toNat = 2147483648 + v.toNat
    rw [BitVec.toNat_or, hv]
    exact (Nat.two_pow_add_eq_or_of_lt hlt 1).symm

section Registers

variable {reg : Byte} {s : State} {n : Nat}

theorem exec_statusRead_of_unmapped (h : regWord reg s.toBlock = none) :
    exec (.statusRead reg) s = .next { s with output := some (.record .host [8]) } := by
  simp only [exec, execStatusRead, State.operate, h]
  rfl

theorem exec_statusRead_of_number (hvis : frameRegister reg = true → s.phase = .complete)
    (h : ∃ w, regWord reg s.toBlock = some w ∧ w.toNat = n) :
    exec (.statusRead reg) s = .next { s with output := some (.record .host (0 :: fourBytes n)) } := by
  obtain ⟨w, hw, rfl⟩ := h
  have hno : ¬ (frameRegister reg = true ∧ s.phase ≠ .complete) := fun h => h.2 (hvis h.1)
  simp only [exec, execStatusRead, State.operate, hw, if_neg hno, bytes32_eq_fourBytes]
  rfl

/-- The word of each register that is readable in every state (10_state.md R37). -/
theorem regWord_of_mem (h : (reg, n) ∈ [(0x00#8, s.cap.toNat), (0x01, s.rtoMs.toNat), (0x02, optionNumber s.gainMode),
      (0x03, optionNumber s.intTimeMs), (0x10, (phaseCode s.phase).toNat), (0x11, s.cont.toNat),
      (0x12, s.attempts.toNat), (0x13, s.dim.toNat), (0x14, optionNumber s.activeCh), (0x15, (errCode s.err).toNat),
      (0x16, (doneCode s.doneReason).toNat)]) :
    frameRegister reg = false ∧ ∃ w, regWord reg s.toBlock = some w ∧ w.toNat = n := by
  have hbyte (v : Byte) : (v.setWidth 32).toNat = v.toNat := BitVec.toNat_setWidth_of_le (by decide)
  have hdim : (s.dim.setWidth 32).toNat = s.dim.toNat := BitVec.toNat_setWidth_of_le (by decide)
  have hcont : (if s.cont = true then 1 else 0 : BitVec 32).toNat = s.cont.toNat := by cases s.cont <;> rfl
  simp only [List.mem_cons, List.not_mem_nil, or_false, Prod.mk.injEq] at h
  obtain ⟨rfl, rfl⟩ | ⟨rfl, rfl⟩ | ⟨rfl, rfl⟩ | ⟨rfl, rfl⟩ | ⟨rfl, rfl⟩ | ⟨rfl, rfl⟩ | ⟨rfl, rfl⟩ | ⟨rfl, rfl⟩ |
    ⟨rfl, rfl⟩ | ⟨rfl, rfl⟩ | ⟨rfl, rfl⟩ := h
  · exact ⟨rfl, _, rfl, hbyte _⟩
  · exact ⟨rfl, _, rfl, rfl⟩
  · exact ⟨rfl, _, rfl, toNat_optionWord (by decide) _⟩
  · exact ⟨rfl, _, rfl, toNat_optionWord (by decide) _⟩
  · exact ⟨rfl, _, rfl, hbyte _⟩
  · exact ⟨rfl, _, rfl, hcont⟩
  · exact ⟨rfl, _, rfl, hbyte _⟩
  · exact ⟨rfl, _, rfl, hdim⟩
  · exact ⟨rfl, _, rfl, toNat_optionWord (by decide) _⟩
  · exact ⟨rfl, _, rfl, hbyte _⟩
  · exact ⟨rfl, _, rfl, hbyte _⟩

/-- The word of each frame register, where there is metadata (10_state.md R34, R37). -/
theorem regWord_of_mem_frame {m : FrameMeta} (hmeta : s.frameMeta = some m)
    (h : (reg, n) ∈ [(0x17#8, optionNumber m.gain), (0x18, optionNumber m.itime), (0x19, optionNumber m.ch),
      (0x1A, s.dim.toNat)]) : ∃ w, regWord reg s.toBlock = some w ∧ w.toNat = n := by
  have hfield {k : Nat} (f : FrameMeta → Option (BitVec k)) (hk : k ≤ 31) :
      (optionWord (metaField f s.toBlock)).toNat = optionNumber (f m) := by
    rw [metaField, hmeta]
    exact toNat_optionWord hk (f m)
  simp only [List.mem_cons, List.not_mem_nil, or_false, Prod.mk.injEq] at h
  obtain ⟨rfl, rfl⟩ | ⟨rfl, rfl⟩ | ⟨rfl, rfl⟩ | ⟨rfl, rfl⟩ := h
  · exact ⟨_, rfl, hfield FrameMeta.gain (by decide)⟩
  · exact ⟨_, rfl, hfield FrameMeta.itime (by decide)⟩
  · exact ⟨_, rfl, hfield FrameMeta.ch (by decide)⟩
  · exact ⟨_, rfl, BitVec.toNat_setWidth_of_le (by decide)⟩

theorem regWord_eq_none (h : reg ∉ [0x00#8, 0x01, 0x02, 0x03, 0x10, 0x11, 0x12, 0x13, 0x14, 0x15, 0x16, 0x17, 0x18, 0x19,
    0x1A]) (b : Block) : regWord reg b = none := by
  simp only [List.mem_cons, List.not_mem_nil, or_false, not_or] at h
  obtain ⟨h0, hrest⟩ := h
  exact (if_neg h0).trans (by simp only [hrest, if_false])

end Registers

/-- Settles O46: the registers readable in every state, the frame registers in COMPLETE and elsewhere, and the numbers that
are no register. -/
theorem statusReadGivesWord : Obligations.StatusReadGivesWord := by
  refine fun reg s => ⟨fun _ _ => (Operation.statusRead reg).decodeTransaction_eq, fun n hn => ?_,
    fun hs m n hmeta hn => exec_statusRead_of_number (fun _ => hs) (regWord_of_mem_frame hmeta hn), fun hs hreg => ?_,
    fun hreg => exec_statusRead_of_unmapped (regWord_eq_none hreg _)⟩
  · obtain ⟨hvis, hw⟩ := regWord_of_mem hn
    exact exec_statusRead_of_number (fun h => by cases hvis.symm.trans h) hw
  · refine exec_statusRead_frameRegister_of_not_complete ?_ hs
    revert reg
    decide

section Configuration

variable {reg : Byte} {v : BitVec 32} {s : State} {b : Block}

/-! What `configWrite` answers for each configuration register (43_sequencer.md R213). -/

theorem configWrite_cap : configWrite 0x00 v b =
    if v.toNat < 1 ∨ 255 < v.toNat then none else some { b with cap := BitVec.ofNat 8 v.toNat } := by
  rw [BitVec.ofNat_toNat]
  rfl

theorem configWrite_rtoMs : configWrite 0x01 v b = if v = 0 then none else some { b with rtoMs := v } := rfl

theorem configWrite_gainMode : configWrite 0x02 v b =
    if 1 < v.toNat then none else some { b with gainMode := some (BitVec.ofNat 1 v.toNat) } := by
  rw [BitVec.ofNat_toNat]
  rfl

theorem configWrite_intTimeMs : configWrite 0x03 v b =
    if v.toNat < 1 ∨ 66000 < v.toNat then none else some { b with intTimeMs := some (BitVec.ofNat 17 v.toNat) } := by
  rw [BitVec.ofNat_toNat]
  rfl

theorem configWrite_of_three_lt (h : 3 < reg.toNat) : configWrite reg v b = none := by
  have hne (k : Byte) (hle : k.toNat ≤ 3) : reg ≠ k := fun he => absurd h (Nat.not_lt.mpr (he ▸ hle))
  rw [configWrite, if_neg (hne 0 (by decide)), if_neg (hne 1 (by decide)), if_neg (hne 2 (by decide)),
    if_neg (hne 3 (by decide))]

/-- A value outside its register's range, or of no configuration register, is not written. -/
theorem configWrite_eq_none
    (h : (reg = 0x00 ∧ (v = 0 ∨ 255 < v.toNat)) ∨ (reg = 0x01 ∧ v = 0) ∨ (reg = 0x02 ∧ 1 < v.toNat) ∨
      (reg = 0x03 ∧ (v = 0 ∨ 66000 < v.toNat)) ∨ 3 < reg.toNat) : configWrite reg v b = none := by
  have hzero : v = 0 → v.toNat < 1 := by rintro rfl; decide
  obtain ⟨rfl, hv⟩ | ⟨rfl, hv⟩ | ⟨rfl, hv⟩ | ⟨rfl, hv⟩ | hreg := h
  · exact configWrite_cap.trans (if_pos (hv.imp_left hzero))
  · exact configWrite_rtoMs.trans (if_pos hv)
  · exact configWrite_gainMode.trans (if_pos hv)
  · exact configWrite_intTimeMs.trans (if_pos (hv.imp_left hzero))
  · exact configWrite_of_three_lt hreg

theorem exec_cfgWrite_of_inFlight (hs : inFlight s.toBlock = true) :
    exec (.cfgWrite reg v) s = .next { s with output := some (.record .host [7]) } := by
  simp only [exec, execCfgWrite, State.operate, if_pos hs]
  rfl

theorem exec_cfgWrite_of_illegal (hs : inFlight s.toBlock = false) (h : configWrite reg v s.toBlock = none) :
    exec (.cfgWrite reg v) s = .next { s with output := some (.record .host [8]) } := by
  simp only [exec, execCfgWrite, State.operate, hs, h]
  rfl

theorem exec_cfgWrite_of_legal (hs : inFlight s.toBlock = false) {c : Block} (h : configWrite reg v s.toBlock = some c) :
    exec (.cfgWrite reg v) s = .next { s with toBlock := respond .host [0] c } := by
  simp only [exec, execCfgWrite, State.operate, hs, h]
  rfl

end Configuration

theorem toNat_be32 (a b c d : Byte) :
    (be32 a b c d).toNat = a.toNat * 16777216 + b.toNat * 65536 + c.toNat * 256 + d.toNat := by
  have h : (be32 a b c d).toNat = (be24 a b c).toNat * 256 + d.toNat := toNat_append_byte _ d
  rw [h, toNat_be24]
  omega

/-- Settles O48: `configWrite` register by register, for a value in its range and for one outside. -/
theorem cfgWriteWritesOneRegister : Obligations.CfgWriteWritesOneRegister := by
  refine ⟨fun reg a b c d _ _ => ⟨be32 a b c d, ?_, toNat_be32 a b c d⟩, fun reg v s =>
    ⟨fun hs => exec_cfgWrite_of_inFlight ((inFlight_iff _).mpr hs), fun hreq hstr => ?_⟩⟩
  · rw [← bytes32_be32 a b c d]
    exact (Operation.cfgWrite reg (be32 a b c d)).decodeTransaction_eq
  have hs := inFlight_eq_false hreq hstr
  refine ⟨?cap, ?rtoMs, ?gainMode, ?intTimeMs, fun h => exec_cfgWrite_of_illegal hs (configWrite_eq_none h)⟩
  case cap =>
    rintro rfl h1 h255
    exact exec_cfgWrite_of_legal hs (configWrite_cap.trans (if_neg (by omega)))
  case rtoMs =>
    rintro rfl hv
    exact exec_cfgWrite_of_legal hs (configWrite_rtoMs.trans (if_neg hv))
  case gainMode =>
    rintro rfl h1
    exact exec_cfgWrite_of_legal hs (configWrite_gainMode.trans (if_neg (by omega)))
  case intTimeMs =>
    rintro rfl h1 hmax
    exact exec_cfgWrite_of_legal hs (configWrite_intTimeMs.trans (if_neg (by omega)))

/-! ## The frame (43_sequencer.md R212) -/

section Frame

variable {row col : Byte} {s : State}

theorem exec_frameRead_of_outside (hs : s.phase = .complete)
    (h : s.dim = 0 ∨ s.dim.toNat ≤ row.toNat ∨ s.dim.toNat ≤ col.toNat) :
    exec (.frameRead row col) s = .next { s with output := some (.record .host [8]) } := by
  simp only [exec, execFrameRead, if_neg (not_not.mpr hs), if_pos h]
  rfl

/-- A row and a column below DIM are read, or stop where there is no such cell. -/
theorem exec_frameRead_of_inside (hs : s.phase = .complete) (hrow : row.toNat < s.dim.toNat)
    (hcol : col.toNat < s.dim.toNat) : exec (.frameRead row col) s =
      if row.toNat * 24 + col.toNat < 576 then
        .next { s with output := some (.record .host (0 :: bytes16 (s.fb.read (row.toNat * 24 + col.toNat)))) }
      else .fault (.noSuchCell (row.toNat * 24 + col.toNat)) := by
  have hdim : s.dim ≠ 0 := fun h => Nat.not_lt_zero _ (h ▸ hrow : row.toNat < (0 : BitVec 5).toNat)
  have hin : ¬ (s.dim = 0 ∨ s.dim.toNat ≤ row.toNat ∨ s.dim.toNat ≤ col.toNat) := by
    simp only [hdim, false_or]
    omega
  by_cases haddr : row.toNat * 24 + col.toNat < 576
  · have hread : s.fb.read? (row.toNat * Config.fbStride + col.toNat) = some (s.fb.read (row.toNat * 24 + col.toNat)) :=
      if_pos haddr
    simp only [exec, execFrameRead, if_neg (not_not.mpr hs), if_neg hin, hread, if_pos haddr]
    rfl
  · have hread : s.fb.read? (row.toNat * Config.fbStride + col.toNat) = none := if_neg haddr
    simp only [exec, execFrameRead, if_neg (not_not.mpr hs), if_neg hin, hread, if_neg haddr]
    rfl

end Frame

theorem toNat_bytes16 (v : BitVec 16) :
    (v.extractLsb' 8 8).toNat * 256 + (v.extractLsb' 0 8).toNat = v.toNat := samplesBytes_pair [v] 0 0

/-- Settles O47: FRAME_READ's two checks, then the cell, which exists for the dimensions that are held. -/
theorem frameReadGivesCell : Obligations.FrameReadGivesCell := by
  refine fun row col s => ⟨fun _ _ => (Operation.frameRead row col).decodeTransaction_eq,
    exec_frameRead_of_not_complete row col, exec_frameRead_of_outside, fun hs hdim hrow hcol => ?_,
    fun hs hrow hcol haddr => ?_⟩
  · have hdim24 : s.dim.toNat ≤ 24 := by obtain h | h := hdim <;> simp [h]
    exact ⟨_, _, toNat_bytes16 _, (exec_frameRead_of_inside hs hrow hcol).trans (if_pos (by omega))⟩
  · exact (exec_frameRead_of_inside hs hrow hcol).trans (if_neg (by omega))

/-! ## The transitions of STATE (43_sequencer.md R210) -/

/-- Whatever state the instruction runs in, it leaves STATE as it was. -/
def KeepsPhase (i : Instr) : Prop := ∀ s t, exec i s = .next t → t.phase = s.phase

section Transitions

variable {s t : State}

theorem keepsPhase_of_operate {i : Instr} {f : Params → Block → Block} (hexec : ∀ s, exec i s = .next (s.operate f))
    (hf : ∀ p b, (f p b).phase = b.phase) : KeepsPhase i := by
  intro s t h
  cases (hexec s).symm.trans h
  exact hf s.params s.toBlock

theorem respondReport_phase (r : Except ErrCode Report) (b : Block) : (respondReport r b).phase = b.phase := by
  rw [respondReport_eq, respond_phase]

theorem emitBuilt_phase (r : Except ErrCode Report) (b : Block) : (emitBuilt r b).phase = b.phase := by
  cases r <;> rfl

theorem keepsPhase_classify (len : Byte) (r : Report) : KeepsPhase (.classify len r) := by
  refine keepsPhase_of_operate (fun _ => rfl) fun p b => ?_
  split_ifs <;> rfl

theorem keepsPhase_cfgWrite (reg : Byte) (v : BitVec 32) : KeepsPhase (.cfgWrite reg v) := by
  refine keepsPhase_of_operate (fun _ => rfl) fun _ b => ?_
  split_ifs
  · rfl
  · cases hc : configWrite reg v b with
    | none => rfl
    | some c => obtain ⟨_, _, _, _, rfl⟩ := configWrite_keeps hc; rfl

theorem keepsPhase_statusRead (reg : Byte) : KeepsPhase (.statusRead reg) := by
  refine keepsPhase_of_operate (fun _ => rfl) fun _ b => ?_
  cases regWord reg b with
  | none => rfl
  | some w => split_ifs <;> rfl

theorem keepsPhase_frameRead (row col : Byte) : KeepsPhase (.frameRead row col) := by
  intro s t h
  by_cases hs : s.phase = .complete
  · by_cases hout : s.dim = 0 ∨ s.dim.toNat ≤ row.toNat ∨ s.dim.toNat ≤ col.toNat
    · cases (exec_frameRead_of_outside hs hout).symm.trans h
      rfl
    · rw [exec_frameRead_of_inside hs (by omega) (by omega)] at h
      split_ifs at h
      cases h
      rfl
  · cases (exec_frameRead_of_not_complete row col hs).symm.trans h
    rfl

/-- The instructions that can change STATE: the deliveries of a report, and five operations (43_sequencer.md R210). -/
theorem keepsPhase_or_moves (i : Instr) : KeepsPhase i ∨ DeliversReport i ∨ (∃ ch, i = .capStart ch) ∨
    (∃ st, i = .sendAck st) ∨ i = .rdTimeout ∨ i = .xportErr ∨ i = .abort := by
  cases i with
  | encSimple | encFramed | encCmd =>
    exact .inl (keepsPhase_of_operate (fun _ => rfl) fun _ => respondReport_phase _)
  | rptFramed | rptSimple => exact .inl (keepsPhase_of_operate (fun _ => rfl) fun _ => emitBuilt_phase _)
  | chkValidate | illegalOp => exact .inl (keepsPhase_of_operate (fun _ => rfl) fun _ _ => rfl)
  | classify len r => exact .inl (keepsPhase_classify len r)
  | cfgWrite reg v => exact .inl (keepsPhase_cfgWrite reg v)
  | statusRead reg => exact .inl (keepsPhase_statusRead reg)
  | frameRead row col => exact .inl (keepsPhase_frameRead row col)
  | capStart ch => exact .inr (.inr (.inl ⟨ch, rfl⟩))
  | sendAck st => exact .inr (.inr (.inr (.inl ⟨st, rfl⟩)))
  | rdTimeout | xportErr | abort => simp
  | pktIn len r => exact .inr (.inl (.inl ⟨len, r, rfl⟩))
  | _ => exact .inr (.inl (.inr ⟨0, _, _, rfl⟩))

/-- What a packet can make of STATE: nothing, a completion with its reason, or the sensor's failure. -/
def PacketTransition (b c : Block) : Prop :=
  c.phase = b.phase ∨
    b.phase = .streaming ∧
      (c.phase = .complete ∧ (c.doneReason = .terminal ∨ c.doneReason = .cap) ∨
        c.phase = .failed ∧ c.err = .sensorTimeout)

theorem packetTransition_ignoreTruncated (p : Params) {b : Block} (hb : b.phase = .streaming) :
    PacketTransition b (ignoreTruncated p b) := by
  obtain ⟨-, h⟩ | ⟨-, -, h⟩ | ⟨-, -, h⟩ := ignoreTruncated_cases p b
  all_goals rw [h]
  · exact .inl rfl
  · exact .inl rfl
  · exact .inr ⟨hb, .inl ⟨rfl, .inr rfl⟩⟩

theorem packetTransition_applyPacket (d : DecodedResponse) {b : Block} (hb : b.phase = .streaming) :
    PacketTransition b (applyPacket d b) := by
  obtain ⟨-, h⟩ | ⟨-, -, h⟩ | ⟨-, -, -, h⟩ | ⟨-, -, -, h⟩ := applyPacket_cases d b
  all_goals rw [h]
  · exact .inr ⟨hb, .inr ⟨rfl, rfl⟩⟩
  · exact .inr ⟨hb, .inl ⟨rfl, .inl rfl⟩⟩
  · exact .inr ⟨hb, .inl ⟨rfl, .inr rfl⟩⟩
  · exact .inl (consumeRow_phase d (countPacket d b))

theorem packetTransition_deliver (p : Params) (len : Byte) (d : DecodedResponse) (b : Block) :
    PacketTransition b (deliver p len d b) := by
  obtain ⟨-, h⟩ | ⟨-, -, h⟩ | ⟨hb, -, h⟩ | ⟨hb, -, -, h⟩ := deliver_cases p len d b
  all_goals rw [h]
  · exact .inl rfl
  · exact .inl rfl
  · exact packetTransition_ignoreTruncated p hb
  · exact packetTransition_applyPacket d hb

/-- What CAP_START can make of STATE. -/
theorem capStart_transition {ch : Byte} (h : exec (.capStart ch) s = .next t) (hne : t.phase ≠ s.phase) :
    inFlight s.toBlock = false ∧ t.phase = .requesting ∧ t.err = .none := by
  obtain ⟨-, hc⟩ | ⟨-, -, hc⟩ | ⟨-, -, -, e, -, hc⟩ | ⟨hs, -, -, rep, -, hc⟩ := execCapStart_cases ch s
  all_goals cases hc.symm.trans h
  case inr.inr.inr => exact ⟨hs, rfl, rfl⟩
  all_goals exact absurd rfl hne

/-- What SEND_ACK can make of STATE: it streams or fails, by its status byte. -/
theorem sendAck_transition {st : Byte} (h : exec (.sendAck st) s = .next t) (hne : t.phase ≠ s.phase) :
    s.phase = .requesting ∧ (st = 0 ∧ t.phase = .streaming ∨ st = 1 ∧ t.phase = .failed ∧ t.err = .transportError) := by
  by_cases hs : s.phase = .requesting
  · have hst : 2 ≤ st.toNat ∨ st = 0 ∨ st = 1 := by bv_omega
    obtain hst | rfl | rfl := hst
    · cases (exec_sendAck_of_illegalStatus hs hst).symm.trans h
      exact absurd rfl hne
    · cases (exec_sendAck_zero hs).symm.trans h
      exact ⟨hs, .inl ⟨rfl, rfl⟩⟩
    · cases (exec_sendAck_one hs).symm.trans h
      exact ⟨hs, .inr ⟨rfl, rfl, rfl⟩⟩
  · cases (exec_sendAck_of_not_requesting hs).symm.trans h
    exact absurd rfl hne

theorem rdTimeout_transition (h : exec .rdTimeout s = .next t) (hne : t.phase ≠ s.phase) :
    s.phase = .streaming ∧ t.phase = .failed ∧ t.err = .timedOut := by
  by_cases hs : s.phase = .streaming
  · cases (exec_rdTimeout_of_streaming hs).symm.trans h
    exact ⟨hs, rfl, rfl⟩
  · cases (exec_rdTimeout_of_not_streaming hs).symm.trans h
    exact absurd rfl hne

theorem xportErr_transition (h : exec .xportErr s = .next t) (hne : t.phase ≠ s.phase) :
    inFlight s.toBlock = true ∧ t.phase = .failed ∧ t.err = .transportError := by
  by_cases hs : inFlight s.toBlock = true
  · cases (exec_xportErr_of_inFlight hs).symm.trans h
    exact ⟨hs, rfl, rfl⟩
  · cases (exec_xportErr_of_not_inFlight (Bool.eq_false_iff.mpr hs)).symm.trans h
    exact absurd rfl hne

theorem phase_of_inFlight_eq_false {b : Block} (h : inFlight b = false) :
    b.phase = .idle ∨ b.phase = .complete ∨ b.phase = .failed := by
  have hno : ¬ (b.phase = .requesting ∨ b.phase = .streaming) := (inFlight_iff b).not.mp (Bool.eq_false_iff.mp h)
  cases hb : b.phase <;> simp [hb] at hno ⊢

end Transitions

/-- Settles O50: an instruction keeps STATE, delivers a report, or is one of five operations with their own transitions. -/
theorem stateTransitions : Obligations.StateTransitions := by
  intro i s t h hne
  obtain hkeep | hd | ⟨ch, rfl⟩ | ⟨st, rfl⟩ | rfl | rfl | rfl := keepsPhase_or_moves i
  · exact absurd (hkeep s t h) hne
  · obtain ⟨len, d, hexec⟩ := exec_eq_deliver_of_deliversReport hd s
    cases hexec.symm.trans h
    obtain hph | ⟨hs, hdone | hfail⟩ := packetTransition_deliver s.params len d s.toBlock
    · exact absurd hph hne
    · exact .inr (.inr (.inr (.inl ⟨hd, hs, hdone⟩)))
    · exact .inr (.inr (.inr (.inr (.inl ⟨hd, hs, hfail⟩))))
  · obtain ⟨hs, ht⟩ := capStart_transition h hne
    exact .inl ⟨⟨ch, rfl⟩, phase_of_inFlight_eq_false hs, ht⟩
  · obtain ⟨hs, ⟨rfl, ht⟩ | ⟨rfl, ht⟩⟩ := sendAck_transition h hne
    · exact .inr (.inl ⟨rfl, hs, ht⟩)
    · exact .inr (.inr (.inl ⟨.inl ⟨rfl, hs⟩, ht⟩))
  · obtain ⟨hs, ht⟩ := rdTimeout_transition h hne
    exact .inr (.inr (.inr (.inr (.inr (.inl ⟨rfl, hs, ht⟩)))))
  · obtain ⟨hs, ht⟩ := xportErr_transition h hne
    exact .inr (.inr (.inl ⟨.inr ⟨rfl, (inFlight_iff _).mp hs⟩, ht⟩))
  · cases (exec_abort s).symm.trans h
    exact .inr (.inr (.inr (.inr (.inr (.inr ⟨rfl, rfl, rfl⟩)))))

end Sys2Proof.Machine
end

section
/-! PROOF. 60_exceptions.md: what an error record says and leaves alone (R240, R242, R249), transport events after a capture
(R248), and the bound on a capture's packets (R255). -/

namespace Sys2Proof.Machine

/-! ## No nested failure (60_exceptions.md R248) -/

/-- Settles O52: SEND_ACK needs REQUESTING, a delivery and RD_TIMEOUT need STREAMING, XPORT_ERR one of the two. -/
theorem noNestedFailure : Obligations.NoNestedFailure := by
  intro i s hs hi
  obtain ⟨hreq, hstr⟩ : s.phase ≠ .requesting ∧ s.phase ≠ .streaming := by
    obtain h | h := hs <;> simp [h]
  obtain ⟨st, rfl⟩ | hd | rfl | rfl := hi
  · exact exec_sendAck_of_not_requesting hreq
  · exact (packetOutsideStreaming s).1 i hd hstr
  · exact exec_rdTimeout_of_not_streaming hstr
  · exact exec_xportErr_of_not_inFlight (inFlight_eq_false hreq hstr)

/-! ## A capture ends within CAP (60_exceptions.md R255) -/

/-- The PKT_IN transaction that carries a length and a report (30_encoding.md R81). -/
def packetInput (q : Byte × Report) : Input := .transaction .transport (0x12 :: q.1 :: q.2)

/-- The transaction carries 64 bytes, 6..64 of them meaningful. -/
def UntruncatedPacket (q : Byte × Report) : Prop := 6 ≤ q.1.toNat ∧ q.1.toNat ≤ 64 ∧ q.2.length = 64

/-- The capture is over: the frame is complete, or the capture failed. -/
def CaptureOver (b : Block) : Prop := b.phase = .complete ∨ b.phase = .failed

section Packets

variable {s : State} {q : Byte × Report} {rest : List Input}

theorem step_packetInput (hin : s.inputs = packetInput q :: rest) (hq : UntruncatedPacket q) :
    step s = exec (.pktIn q.1 q.2) { s with inputs := rest } := by
  obtain ⟨-, -, hlen⟩ := hq
  exact step_eq_exec_of_fetch hin (congrArg some (Operation.pktIn q.1 q.2 hlen).decodeTransaction_eq)

/-- Once the capture is over, a packet is refused and taken. -/
theorem step_packetInput_of_captureOver (hin : s.inputs = packetInput q :: rest) (hq : UntruncatedPacket q)
    (hs : CaptureOver s.toBlock) : ∃ t, step s = .next t ∧ CaptureOver t.toBlock ∧ t.inputs = rest := by
  have hexec := noNestedFailure (.pktIn q.1 q.2) { s with inputs := rest } (Or.symm hs) (.inr (.inl (.inl ⟨_, _, rfl⟩)))
  exact ⟨_, (step_packetInput hin hq).trans hexec, hs, rfl⟩

/-- What a classified packet makes of a capture: its end, or one more attempt that CAP still allows. -/
theorem applyPacket_ends_or_counts (d : DecodedResponse) {b : Block} (hb : b.phase = .streaming) :
    CaptureOver (applyPacket d b) ∨
    ((applyPacket d b).phase = .streaming ∧ (applyPacket d b).attempts.toNat = b.attempts.toNat + 1 ∧
      (applyPacket d b).cap = b.cap ∧ b.attempts.toNat + 1 < b.cap.toNat) := by
  obtain ⟨-, h⟩ | ⟨-, -, h⟩ | ⟨-, -, -, h⟩ | ⟨-, -, hcap, h⟩ := applyPacket_cases d b
  all_goals rw [h]
  · exact .inl (.inr rfl)
  · exact .inl (.inl rfl)
  · exact .inl (.inl rfl)
  · have hcount : (b.attempts + 1).toNat = b.attempts.toNat + 1 := by bv_omega
    exact .inr ⟨by simpa using hb, by simpa using hcount, by simp, hcap⟩

theorem applyPacket_inputs (d : DecodedResponse) (b : Block) : (applyPacket d b).inputs = b.inputs := by
  obtain ⟨-, h⟩ | ⟨-, -, h⟩ | ⟨-, -, -, h⟩ | ⟨-, -, -, h⟩ := applyPacket_cases d b
  all_goals simp [h]

theorem exec_pktIn_of_streaming {len : Byte} {r : Report} (hs : s.phase = .streaming) (h6 : 6 ≤ len.toNat)
    (h64 : len.toNat ≤ 64) : exec (.pktIn len r) s =
      .next { s with toBlock := applyPacket (classifyReport s.params s.draws len r) s.toBlock } := by
  rw [← deliver_of_streaming s.params _ hs h6 h64]
  rfl

/-- In STREAMING a packet is taken, and ends the capture or is counted below CAP. -/
theorem step_packetInput_of_streaming (hin : s.inputs = packetInput q :: rest) (hq : UntruncatedPacket q)
    (hs : s.phase = .streaming) :
    ∃ t, step s = .next t ∧ t.inputs = rest ∧
      (CaptureOver t.toBlock ∨ (t.phase = .streaming ∧ t.attempts.toNat = s.attempts.toNat + 1 ∧ t.cap = s.cap ∧
        s.attempts.toNat + 1 < s.cap.toNat)) := by
  have hexec := exec_pktIn_of_streaming (s := { s with inputs := rest }) (r := q.2) hs hq.1 hq.2.1
  exact ⟨_, (step_packetInput hin hq).trans hexec, applyPacket_inputs _ _,
    applyPacket_ends_or_counts _ (b := { s.toBlock with inputs := rest }) hs⟩

end Packets

/-- Packets that come after the capture is over are all taken and leave it so. -/
theorem run_packets_of_captureOver {packets : List (Byte × Report)} (hq : ∀ q ∈ packets, UntruncatedPacket q)
    {rest : List Input} {s : State} (hin : s.inputs = packets.map packetInput ++ rest) (hs : CaptureOver s.toBlock) :
    ∃ t, Host.Core.run core packets.length s = .next t ∧ CaptureOver t.toBlock ∧ t.inputs = rest := by
  induction packets generalizing s with
  | nil => exact ⟨s, rfl, hs, hin⟩
  | cons q packets ih =>
    obtain ⟨hq, hqs⟩ := List.forall_mem_cons.mp hq
    obtain ⟨s', hstep, hs', hin'⟩ := step_packetInput_of_captureOver hin hq hs
    obtain ⟨t, hrun, ht⟩ := ih hqs hin' hs'
    exact ⟨t, (run_succ_of_step_next (M := core) _ hstep).trans hrun, ht⟩

/-- From a state of STREAMING with ATTEMPTS below CAP, as many packets as reach CAP end the capture. -/
theorem run_packets_of_streaming {packets : List (Byte × Report)} (hq : ∀ q ∈ packets, UntruncatedPacket q)
    {rest : List Input} {s : State} (hin : s.inputs = packets.map packetInput ++ rest) (hs : s.phase = .streaming)
    (hbelow : s.attempts.toNat < s.cap.toNat) (hreach : s.cap.toNat ≤ s.attempts.toNat + packets.length) :
    ∃ t, Host.Core.run core packets.length s = .next t ∧ CaptureOver t.toBlock ∧ t.inputs = rest := by
  induction packets generalizing s with
  | nil => exact absurd hbelow (Nat.not_lt.mpr hreach)
  | cons q packets ih =>
    obtain ⟨hq, hqs⟩ := List.forall_mem_cons.mp hq
    obtain ⟨s', hstep, hin', hover | ⟨hs', hcount, hcap, hlt⟩⟩ := step_packetInput_of_streaming hin hq hs
    · obtain ⟨t, hrun, ht⟩ := run_packets_of_captureOver hqs hin' hover
      exact ⟨t, (run_succ_of_step_next (M := core) _ hstep).trans hrun, ht⟩
    · rw [List.length_cons] at hreach
      obtain ⟨t, hrun, ht⟩ := ih hqs hin' hs' (by rw [hcount, hcap]; exact hlt) (by rw [hcount, hcap]; omega)
      exact ⟨t, (run_succ_of_step_next (M := core) _ hstep).trans hrun, ht⟩

/-- Settles O60: the invariant puts ATTEMPTS below CAP, and each packet ends the capture or counts towards CAP. -/
theorem captureEndsWithinCap : Obligations.CaptureEndsWithinCap :=
  fun _ _ _ hinv hs hq hin hreach => run_packets_of_streaming hq hin hs (hinv.streamingBelowCap hs) hreach

/-! ## What a result record says (60_exceptions.md R240, R242, R249) -/

/-- What an instruction makes of the block's state `b`, by the result it puts out: an error of 60_exceptions.md R240 other
than MAX_ATTEMPTS_EXCEEDED, with nothing else changed; data, or an outbound report; or one of the two errors that come with
a change, a sensor timeout and a truncated packet where those count. -/
inductive Reply (p : Params) (b : Block) : Block → Prop
  | raised (port : Port) (e : ErrCode) (rest : List Byte) (he : e ≠ .maxAttemptsExceeded) :
      Reply p b (respond port (errCode e :: rest) b)
  | returned (port : Port) (data : List Byte) (c : Block) : Reply p b (respond port (0 :: data) c)
  | emitted (r : Report) : Reply p b (emit r b)
  | sensorTimedOut (c : Block) : Reply p b (respond .transport [errCode .sensorTimeout, 4] c)
  | truncatedCounted (hp : p.countTruncated = true) (ph : Byte) (c : Block) :
      Reply p b (respond .transport [errCode .truncatedResponse, ph] c)

section Replies

variable {p : Params} {b c : Block} {i : Instr} {s t : State}

/-! ### The framer's errors -/

theorem buildFramed_error {cmd dt : Byte} {payload : List Byte} {e : ErrCode}
    (h : buildFramed p cmd dt payload = .error e) : e ≠ .maxAttemptsExceeded := by
  unfold buildFramed at h
  split_ifs at h <;> cases h <;> decide

theorem buildSimple_error {opcode : Byte} {args : List Byte} {e : ErrCode}
    (h : buildSimple p opcode args = .error e) : e ≠ .maxAttemptsExceeded := by
  unfold buildSimple at h
  split_ifs at h <;> cases h <;> decide

theorem buildCommand_error {kind : Byte} {arg : BitVec 24} {e : ErrCode}
    (h : buildCommand p kind arg = .error e) : e ≠ .maxAttemptsExceeded := by
  unfold buildCommand at h
  split at h
  · unfold encodeCommand at h
    split at h
    · exact buildFramed_error h
    · exact buildSimple_error h
  · cases h; decide

theorem reply_respondReport {r : Except ErrCode Report} (hr : ∀ e, r = .error e → e ≠ .maxAttemptsExceeded) :
    Reply p b (respondReport r b) := by
  cases r with
  | ok rep => exact .returned .host rep b
  | error e => exact .raised .host e [] (hr e rfl)

theorem reply_emitBuilt {r : Except ErrCode Report} (hr : ∀ e, r = .error e → e ≠ .maxAttemptsExceeded) :
    Reply p b (emitBuilt r b) := by
  cases r with
  | ok rep => exact .emitted rep
  | error e => exact .raised .transport e [] (hr e rfl)

/-! ### The other operations -/

theorem reply_execClassify (len : Byte) (r : Report) (s : State) :
    ∃ c, execClassify len r s = .next { s with toBlock := c } ∧ Reply s.params s.toBlock c := by
  refine ⟨_, rfl, ?_⟩
  simp only
  split_ifs
  · exact .raised .host .invalidArgument [] nofun
  · exact .raised .host .truncatedResponse [] nofun
  · exact .returned .host _ _

theorem reply_execCapStart (ch : Byte) (s : State) :
    ∃ c, execCapStart ch s = .next { s with toBlock := c } ∧ Reply s.params s.toBlock c := by
  obtain ⟨-, h⟩ | ⟨-, -, h⟩ | ⟨-, -, -, e, he, h⟩ | ⟨-, -, -, rep, -, h⟩ := execCapStart_cases ch s
  · exact ⟨_, h, .raised .host .illegalState [] nofun⟩
  · exact ⟨_, h, .raised .host .invalidArgument [] nofun⟩
  · exact ⟨_, h, .raised .host e [] (buildCommand_error he)⟩
  · exact ⟨_, h, .returned .host rep _⟩

theorem reply_execSendAck (st : Byte) (s : State) :
    ∃ c, execSendAck st s = .next { s with toBlock := c } ∧ Reply s.params s.toBlock c := by
  refine ⟨_, rfl, ?_⟩
  simp only
  split_ifs
  · exact .raised .transport .illegalState _ nofun
  · exact .raised .transport .invalidArgument _ nofun
  · exact .returned .transport _ _
  · exact .returned .transport _ _

theorem reply_execRdTimeout (s : State) :
    ∃ c, execRdTimeout s = .next { s with toBlock := c } ∧ Reply s.params s.toBlock c := by
  refine ⟨_, rfl, ?_⟩
  simp only
  split_ifs
  · exact .raised .transport .illegalState _ nofun
  · exact .returned .transport _ _

theorem reply_execXportErr (s : State) :
    ∃ c, execXportErr s = .next { s with toBlock := c } ∧ Reply s.params s.toBlock c := by
  refine ⟨_, rfl, ?_⟩
  simp only
  split_ifs
  · exact .returned .transport _ _
  · exact .raised .transport .illegalState _ nofun

theorem reply_execCfgWrite (reg : Byte) (v : BitVec 32) (s : State) :
    ∃ c, execCfgWrite reg v s = .next { s with toBlock := c } ∧ Reply s.params s.toBlock c := by
  refine ⟨_, rfl, ?_⟩
  simp only
  split_ifs
  · exact .raised .host .illegalState [] nofun
  · cases configWrite reg v s.toBlock with
    | none => exact .raised .host .invalidArgument [] nofun
    | some c => exact .returned .host [] c

theorem reply_execStatusRead (reg : Byte) (s : State) :
    ∃ c, execStatusRead reg s = .next { s with toBlock := c } ∧ Reply s.params s.toBlock c := by
  refine ⟨_, rfl, ?_⟩
  simp only
  split
  · exact .raised .host .invalidArgument [] nofun
  · split_ifs
    · exact .raised .host .illegalState [] nofun
    · exact .returned .host _ _

theorem reply_execFrameRead {row col : Byte} (h : execFrameRead row col s = .next t) :
    Reply s.params s.toBlock t.toBlock := by
  unfold execFrameRead at h
  split_ifs at h
  · cases h; exact .raised .host .illegalState [] nofun
  · cases h; exact .raised .host .invalidArgument [] nofun
  · split at h
    · cases h; exact .returned .host _ _
    · cases h

/-! ### Deliveries -/

theorem reply_ignoreTruncated (p : Params) (b : Block) : Reply p b (ignoreTruncated p b) := by
  obtain ⟨-, h⟩ | ⟨hp, -, h⟩ | ⟨hp, -, h⟩ := ignoreTruncated_cases p b
  all_goals rw [h]
  · exact .raised .transport .truncatedResponse _ nofun
  · exact .truncatedCounted hp _ _
  · exact .truncatedCounted hp _ _

theorem reply_applyPacket (p : Params) (d : DecodedResponse) (b : Block) : Reply p b (applyPacket d b) := by
  obtain ⟨-, h⟩ | ⟨-, -, h⟩ | ⟨-, -, -, h⟩ | ⟨-, -, -, h⟩ := applyPacket_cases d b
  all_goals rw [h]
  · exact .sensorTimedOut _
  all_goals exact .returned .transport _ _

theorem reply_deliver (p : Params) (len : Byte) (d : DecodedResponse) (b : Block) : Reply p b (deliver p len d b) := by
  obtain ⟨-, h⟩ | ⟨-, -, h⟩ | ⟨-, -, h⟩ | ⟨-, -, -, h⟩ := deliver_cases p len d b
  all_goals rw [h]
  · exact .raised .transport .illegalState _ nofun
  · exact .raised .transport .invalidArgument _ nofun
  · exact reply_ignoreTruncated p b
  · exact reply_applyPacket p d b

theorem reply_of_deliversReport (hi : DeliversReport i) (s : State) :
    ∃ c, exec i s = .next { s with toBlock := c } ∧ Reply s.params s.toBlock c := by
  obtain ⟨len, d, h⟩ := exec_eq_deliver_of_deliversReport hi s
  exact ⟨_, h, reply_deliver s.params len d s.toBlock⟩

/-! ### Every instruction -/

theorem exec_replies (h : exec i s = .next t) : Reply s.params s.toBlock t.toBlock := by
  cases i with
  | encSimple => exact toBlock_of_exec_next h ⟨_, rfl, reply_respondReport fun _ => buildSimple_error⟩
  | encFramed => exact toBlock_of_exec_next h ⟨_, rfl, reply_respondReport fun _ => buildFramed_error⟩
  | encCmd => exact toBlock_of_exec_next h ⟨_, rfl, reply_respondReport fun _ => buildCommand_error⟩
  | rptSimple => exact toBlock_of_exec_next h ⟨_, rfl, reply_emitBuilt fun _ => buildSimple_error⟩
  | rptFramed => exact toBlock_of_exec_next h ⟨_, rfl, reply_emitBuilt fun _ => buildFramed_error⟩
  | chkValidate => exact toBlock_of_exec_next h ⟨_, rfl, .returned .host _ _⟩
  | illegalOp port => exact toBlock_of_exec_next h ⟨_, rfl, .raised port .illegalOp [] nofun⟩
  | classify len r => exact toBlock_of_exec_next h (reply_execClassify len r s)
  | capStart ch => exact toBlock_of_exec_next h (reply_execCapStart ch s)
  | sendAck st => exact toBlock_of_exec_next h (reply_execSendAck st s)
  | rdTimeout => exact toBlock_of_exec_next h (reply_execRdTimeout s)
  | xportErr => exact toBlock_of_exec_next h (reply_execXportErr s)
  | abort => exact toBlock_of_exec_next h ⟨_, rfl, .returned .host _ _⟩
  | cfgWrite reg v => exact toBlock_of_exec_next h (reply_execCfgWrite reg v s)
  | statusRead reg => exact toBlock_of_exec_next h (reply_execStatusRead reg s)
  | frameRead row col => exact reply_execFrameRead h
  | pktIn len r => exact toBlock_of_exec_next h (reply_of_deliversReport (.inl ⟨len, r, rfl⟩) s)
  | _ => exact toBlock_of_exec_next h (reply_of_deliversReport (.inr ⟨0, _, _, rfl⟩) s)

/-! ### The first byte of a record -/

theorem errCode_legal {e : ErrCode} (he : e ≠ .maxAttemptsExceeded) : (errCode e).toNat ≤ 10 ∧ errCode e ≠ 6 := by
  cases e with
  | maxAttemptsExceeded => exact absurd rfl he
  | _ => decide

theorem Reply.code_legal (h : Reply p b c) {port : Port} {code : Byte} {rest : List Byte}
    (hout : c.output = some (.record port (code :: rest))) : code.toNat ≤ 10 ∧ code ≠ 6 := by
  cases h with
  | raised _ e _ he => cases hout; exact errCode_legal he
  | returned => cases hout; decide
  | emitted => cases hout
  | sensorTimedOut => cases hout; decide
  | truncatedCounted => cases hout; decide

/-- An error record whose error is none of the two that come with a change leaves every element. -/
theorem Reply.eq_of_error (h : Reply p b c) {port : Port} {code : Byte} {rest : List Byte}
    (hout : c.output = some (.record port (code :: rest))) (h0 : code ≠ 0) (h3 : code ≠ 3)
    (h2 : code = 2 → p.countTruncated = false) : c = { b with output := c.output } := by
  cases h with
  | raised => rfl
  | returned => cases hout; exact absurd rfl h0
  | emitted => rfl
  | sensorTimedOut => cases hout; exact absurd rfl h3
  | truncatedCounted hp => cases hout; cases hp.symm.trans (h2 rfl)

/-- ERR is kept, cleared, or set to a cause that FAIL is called with (10_state.md R28). -/
theorem Effect.err_legal (h : Effect p b i c) : c.err = b.err ∨ c.err = .none ∨ FailureCause c.err := by
  cases h with
  | started | aborted => exact .inr (.inl rfl)
  | failed _ _ _ hcause => exact .inr (.inr hcause)
  | sensorTimedOut => exact .inr (.inr (.inl rfl))
  | configured _ _ _ _ hc => obtain ⟨_, _, _, _, rfl⟩ := configWrite_keeps hc; exact .inl rfl
  | consumedAtCap | consumed => exact .inl (by simp)
  | _ => exact .inl rfl

theorem exec_err_ne_maxAttemptsExceeded (h : exec i s = .next t) (hs : s.err ≠ .maxAttemptsExceeded) :
    t.err ≠ .maxAttemptsExceeded := by
  obtain ⟨c, o, hc, ht⟩ := exec_answers h
  rw [ht]
  obtain he | he | he | he | he := hc.err_legal
  · exact ne_of_eq_of_ne he hs
  all_goals exact ne_of_eq_of_ne he nofun

end Replies

/-- Settles O51, from the replies an instruction can make: two error records come with a change, and both are excepted. -/
theorem operationErrorChangesNothing : Obligations.OperationErrorChangesNothing := by
  intro i s t port c rest h hout h0 h3 h2
  have hb := (exec_replies h).eq_of_error hout h0 h3 h2
  calc t = ⟨t.toBlock, s.params⟩ := by rw [← exec_keeps_params h]
    _ = { s with output := t.output } := congrArg (State.mk · s.params) hb

/-- Settles O59: the codes from the replies an instruction can make, ERR from its effects. -/
theorem maxAttemptsIsNeverReported : Obligations.MaxAttemptsIsNeverReported :=
  fun _ _ _ h => ⟨fun _ _ _ => (exec_replies h).code_legal, exec_err_ne_maxAttemptsExceeded h⟩

end Sys2Proof.Machine
end

section
/-! PROOF. 70_reset_and_hazards.md: the reset values (R271), and RESET as a step of its own (R270). -/

namespace Sys2Proof.Machine

@[simp] theorem fetch_reset (p : Params) (b : Block) : fetch p b .reset = none := rfl

/-- The step that takes a RESET leaves the reset values of draw `s.draws`, beside the parameters and the events not yet
taken (log 17). -/
theorem step_eq_reset {s : State} {rest : List Input} (hin : s.inputs = .reset :: rest) :
    step s = .next ⟨{ Block.reset s.draws with inputs := rest }, s.params⟩ := by
  simp only [step, hin, fetch_reset, State.operate, resetState]

/-- Settles O6: power-up is the reset with draw 0, and each value is one of `Block.reset`. -/
theorem resetValues : Obligations.ResetValues := by
  unfold Obligations.ResetValues
  and_intros <;> rfl

/-- Settles O7: what the step leaves is `Block.reset` of some draw, and its values depend on no draw. -/
theorem resetEventSetsEveryElement : Obligations.ResetEventSetsEveryElement := by
  intro s rest hin
  refine ⟨_, step_eq_reset hin, ?_⟩
  and_intros <;> rfl

end Sys2Proof.Machine
end

section
/-! PROOF. 95_test_vectors.md: the transactions that its vectors write out (section 2; P1 of section 3), by the table of
30_encoding.md R81. -/

namespace Sys2Proof.Machine

/-- Settles O5: six of the transactions are rows of R81. ABORT's op code comes on the other port, and CAP_START's without
its operand byte. -/
theorem specWordsDecode : Obligations.SpecWordsDecode :=
  ⟨(Operation.encFramed 0x01 0x02 [0x05] (by decide)).decodeTransaction_eq,
    (Operation.encSimple 0x05 [0x01, 0x02] (by decide)).decodeTransaction_eq,
    (Operation.encCmd 0x01 66000).decodeTransaction_eq,
    (Operation.sendAck 0).decodeTransaction_eq,
    (Operation.cfgWrite 0x03 66000).decodeTransaction_eq,
    (Operation.frameRead 0x01 0x0B).decodeTransaction_eq,
    decodeTransaction_of_wrongPort (port := .transport) (op := 0x15) (by decide) (by decide) [],
    decodeTransaction_of_wrongLength (op := 0x10) (rest := []) (by decide) (by decide)⟩

end Sys2Proof.Machine
end
